-- ==== Sys2Proof/Word.lean ====
section
/-! DEFINITION. The unit of every stream, buffer cell and frame field: the byte (00_scope.md R12). -/

namespace Sys2Proof

/-- A byte: 8 bits, an unsigned value 0 to 255 (R12). -/
abbrev Byte := BitVec 8

/-- A 32-bit unsigned count, the only multi-byte numeric value of the protocol (R54, R102). -/
abbrev Count := BitVec 32

/-- An open write handle, "opaque to the engine" (R29): the engine stores it, passes it back, and
never computes with it. DESIGN CHOICE, safe: log 14. -/
abbrev Handle := Nat

end Sys2Proof
end

