-- ==== Sys2Proof/Config.lean ====
section
/-! DEFINITION. The configuration record of 00_scope.md R7, the legal configurations of
70_reset_and_hazards.md R333, and the free values: constants with no body, so that no proof can
see what they are. -/

namespace Sys2Proof

/-- What XFER_START does with a payload the spec does not define (43_commands.md R209, D18). -/
inductive StartPolicy where
  /-- The model gives such a frame no meaning. -/
  | refuse
  /-- What "a hardware build that must do something definite uses". -/
  | hardware
  deriving DecidableEq, Repr

/-- The parameters of R7, one field per row of its table, and the policy parameter of R209. -/
structure Config where
  header : Byte
  footer : Byte
  overhead : Nat
  rxCapacity : Nat
  txCapacity : Nat
  statusLen : Nat
  nameFieldLen : Nat
  nameVisibleMax : Nat
  cmdNetConnect : Byte
  cmdNetPassword : Byte
  cmdNetConfirm : Byte
  cmdFileStatus : Byte
  cmdXferStart : Byte
  cmdXferEnd : Byte
  cmdParamA : Byte
  cmdParamB : Byte
  rspSuccess : Byte
  rspLenMismatch : Byte
  rspCksumFailed : Byte
  catBody : Byte
  catBorder : Byte
  updateNameOnOpenFailure : Bool
  startBadPayload : StartPolicy
  deriving DecidableEq, Repr

/-- The defaults of R7. CAT_BODY and CAT_BORDER are OPEN there; the two values are those of the
spec's test configuration T (95_test_vectors.md). DESIGN CHOICE, unsafe: log 4. The policy
`startBadPayload` is the hardware build's of R209. DESIGN CHOICE, unsafe: log 5. -/
def Config.standard : Config where
  header := 0xA5#8
  footer := 0x5A#8
  overhead := 5
  rxCapacity := 32
  txCapacity := 64
  statusLen := 44
  nameFieldLen := 16
  nameVisibleMax := 15
  cmdNetConnect := 0x10#8
  cmdNetPassword := 0x11#8
  cmdNetConfirm := 0x12#8
  cmdFileStatus := 0x13#8
  cmdXferStart := 0x14#8
  cmdXferEnd := 0x15#8
  cmdParamA := 0x16#8
  cmdParamB := 0x17#8
  rspSuccess := 0x00#8
  rspLenMismatch := 0x01#8
  rspCksumFailed := 0x02#8
  catBody := 0x00#8
  catBorder := 0x01#8
  updateNameOnOpenFailure := false
  startBadPayload := .hardware

/-- The six command codes that have a handler, in the order of the handler ports (R43, R173). -/
def Config.handledCodes (cfg : Config) : List Byte :=
  [cfg.cmdNetConnect, cfg.cmdNetPassword, cfg.cmdNetConfirm, cfg.cmdFileStatus, cfg.cmdXferStart,
    cfg.cmdXferEnd]

/-- The eight assigned command codes (R90). -/
def Config.commandCodes (cfg : Config) : List Byte :=
  cfg.handledCodes ++ [cfg.cmdParamA, cfg.cmdParamB]

/-- The codes that SUCCESS can echo (30_encoding.md R94). -/
def Config.successCodes (cfg : Config) : List Byte :=
  [cfg.cmdNetConnect, cfg.cmdNetPassword, cfg.cmdXferStart, cfg.cmdXferEnd]

/-- The response payload codes (R93). -/
def Config.resultCodes (cfg : Config) : List Byte :=
  [cfg.rspSuccess, cfg.rspLenMismatch, cfg.rspCksumFailed]

/-- A payload of this length fits a received frame: `N + OVERHEAD <= RX_CAPACITY` (R85). -/
abbrev Config.fitsRx (cfg : Config) (length : Nat) : Prop := length + cfg.overhead ≤ cfg.rxCapacity

/-- A payload of this length fits a sent frame: `len(p) + OVERHEAD <= TX_CAPACITY` (R233). -/
abbrev Config.fitsTx (cfg : Config) (length : Nat) : Prop := length + cfg.overhead ≤ cfg.txCapacity

/-- When a configuration is legal (R333). -/
structure Config.Legal (cfg : Config) : Prop where
  overhead : cfg.overhead = 5
  rxLower : 5 ≤ cfg.rxCapacity
  rxUpper : cfg.rxCapacity ≤ 260
  statusLen : cfg.statusLen = 44 ∨ cfg.statusLen = 48
  txLower : cfg.statusLen + 5 ≤ cfg.txCapacity
  txUpper : cfg.txCapacity ≤ 260
  nameFieldLen : cfg.nameFieldLen = 16
  nameVisibleMax : cfg.nameVisibleMax = 15
  commandCodes : cfg.commandCodes.Nodup
  resultCodes : cfg.resultCodes.Nodup
  categories : cfg.catBody ≠ cfg.catBorder

/-- FREE VALUE (U12, R198): what the `n`-th answer is, where it is a join status byte. -/
opaque Config.freeJoinStatus : Nat → Byte

/-- FREE VALUE (U14, R207): what the `n`-th answer is, where it answers `openWritable`. -/
opaque Config.freeOpen : Nat → Option Handle

/-- FREE VALUE (U13, R102): what the `n`-th answer is, where it answers `unitCount`. -/
opaque Config.freeUnitCount : Nat → Count

/-- FREE VALUE (U19, R21): what a receive buffer cell that nothing has written holds. -/
opaque Config.unspecifiedCell : Nat → Byte

end Sys2Proof
end

