-- ==== Sys2Proof/Syntax.lean ====
section
/-! DEFINITION. The instructions: one constructor per row of spec/opcode_table.json. The first nine
are the requests the engine decodes (direction rx), the last five the frames it sends (direction
tx): 30_encoding.md R90, R94, R106. -/

namespace Sys2Proof

/-- The two target categories (R29). -/
inductive Category where
  | body
  | border
  deriving DecidableEq, Repr

/-- An instruction: a frame, by its command and what else it carries. A request carries its payload
exactly as validated (R175): how a handler reads it is the handler's own rule (R96). -/
inductive Instr where
  /-- `A5 10 N name ck 5A` (R192). -/
  | netConnect (name : List Byte)
  /-- `A5 11 N password ck 5A` (R195). -/
  | netPassword (password : List Byte)
  /-- `A5 12 N ignored ck 5A` (R198). -/
  | netConfirm (ignored : List Byte)
  /-- `A5 13 N ignored ck 5A` (R200). -/
  | fileStatus (ignored : List Byte)
  /-- `A5 14 N cat name ck 5A` (R204); the payload is the category byte and the name, and may lack
  both (R209). -/
  | xferStart (payload : List Byte)
  /-- `A5 15 N ignored ck 5A` (R212). -/
  | xferEnd (ignored : List Byte)
  /-- `A5 16 N opaque ck 5A` (R215). -/
  | paramA (ignored : List Byte)
  /-- `A5 17 N opaque ck 5A` (R216). -/
  | paramB (ignored : List Byte)
  /-- `A5 cc N opaque ck 5A`, any other code (R174). -/
  | unknown (code : Byte) (ignored : List Byte)
  /-- Sent: `A5 cc 01 00 00 5A` (R190, R94). -/
  | success (code : Byte)
  /-- Sent: `A5 cc 01 01 01 5A` (R170, R94). -/
  | errLen (code : Byte)
  /-- Sent: `A5 cc 01 02 02 5A` (R170, R94). -/
  | errCksum (code : Byte)
  /-- Sent: `A5 12 01 s s 5A` (R198, R94). -/
  | joinStatus (status : Byte)
  /-- Sent: `A5 13 STATUS_LEN record ck 5A` (R200, R94). -/
  | fileStatusReply (record : List Byte)
  deriving DecidableEq, Repr

/-- The rows with `"direction": "rx"`: the requests the engine decodes (R106). -/
def Instr.isRequest : Instr → Bool
  | .netConnect _ | .netPassword _ | .netConfirm _ | .fileStatus _ | .xferStart _ | .xferEnd _
  | .paramA _ | .paramB _ | .unknown _ _ => true
  | .success _ | .errLen _ | .errCksum _ | .joinStatus _ | .fileStatusReply _ => false

end Sys2Proof
end

