-- ==== Sys2Proof/WellFormed.lean ====
section
/-! DEFINITION. Which instructions have an encoding of the form the spec gives their row: size limits
by direction (30_encoding.md R85, R107), the codes a row covers (R91, R94), and the fixed fields of
the status record (R100, R101). -/

namespace Sys2Proof

/-- The fixed fields of a status record: both current-progress counts are zero and the body name
field ends in `0x00` (R100, R101). -/
def statusFieldsFixed (record : List Byte) : Bool :=
  (record.drop 4).take 4 = List.replicate 4 0#8 ∧
  (record.drop 23).take 1 = [0#8] ∧
  (record.drop 28).take 4 = List.replicate 4 0#8

/-- Well-formed under a configuration. A request's payload fits a received frame. An XFER_START with
no category byte is well-formed in this sense: it is a frame the engine receives and R209 speaks
of. -/
def Instr.wellFormed (cfg : Config) : Instr → Bool
  | .netConnect name => cfg.fitsRx name.length
  | .netPassword password => cfg.fitsRx password.length
  | .netConfirm ignored => cfg.fitsRx ignored.length
  | .fileStatus ignored => cfg.fitsRx ignored.length
  | .xferStart payload => cfg.fitsRx payload.length
  | .xferEnd ignored => cfg.fitsRx ignored.length
  | .paramA ignored => cfg.fitsRx ignored.length
  | .paramB ignored => cfg.fitsRx ignored.length
  | .unknown code ignored => decide (cfg.fitsRx ignored.length) && !cfg.commandCodes.contains code
  | .success code => cfg.successCodes.contains code
  | .errLen _ => true
  | .errCksum _ => true
  | .joinStatus _ => true
  | .fileStatusReply record => record.length == cfg.statusLen && statusFieldsFixed record

end Sys2Proof
end

