-- ==== Sys2Proof/Decode.lean ====
section
/-! DEFINITION. The frame format: the checksum, VALIDATE (41_validator.md), the command map that
completes a decoder on any bytes, the encoder of every instruction (44_encoder.md R230), the rows of
the opcode table (30_encoding.md R106), and the reading of a table word. -/

namespace Sys2Proof

/-- `sum8`: the low 8 bits of the arithmetic sum of the bytes (R15, R87, R157). -/
def sum8 (bytes : List Byte) : Byte := BitVec.ofNat 8 (bytes.map BitVec.toNat).sum

/-- `frame(c, p)`, the function ENCODE computes (R105, R230). -/
def frame (cfg : Config) (code : Byte) (payload : List Byte) : List Byte :=
  cfg.header :: code :: BitVec.ofNat 8 payload.length :: (payload ++ [sum8 payload, cfg.footer])

/-- Why VALIDATE rejects a byte sequence (R16, R150). -/
inductive FrameError where
  /-- Check (a) failed; the sender cannot be trusted, so no command byte is kept (R152). -/
  | malformed
  /-- Check (b) failed (R153). -/
  | lengthMismatch (code : Byte)
  /-- Check (c) failed (R154). -/
  | checksumFailed (code : Byte)
  deriving DecidableEq, Repr

/-- VALIDATE (R156): structure, then declared length, then checksum. The match keeps every byte it
reads inside the sequence (R160); a sequence of fewer than three bytes is shorter than OVERHEAD. -/
def validate (cfg : Config) (raw : List Byte) : Except FrameError (Byte × List Byte) :=
  match raw with
  | first :: code :: declared :: rest =>
    if raw.length < cfg.overhead ∨ first ≠ cfg.header ∨ raw.getLast? ≠ some cfg.footer then
      .error .malformed
    else if declared.toNat ≠ raw.length - cfg.overhead then
      .error (.lengthMismatch code)
    else if rest[declared.toNat]? ≠ some (sum8 (rest.take declared.toNat)) then
      .error (.checksumFailed code)
    else .ok (code, rest.take declared.toNat)
  | _ => .error .malformed

/-- The command map (R90, R173): all eight bits of the command byte select the row, and UNKNOWN is
taken only when no other row matches. -/
def instrOf (cfg : Config) (code : Byte) (payload : List Byte) : Instr :=
  if code = cfg.cmdNetConnect then .netConnect payload
  else if code = cfg.cmdNetPassword then .netPassword payload
  else if code = cfg.cmdNetConfirm then .netConfirm payload
  else if code = cfg.cmdFileStatus then .fileStatus payload
  else if code = cfg.cmdXferStart then .xferStart payload
  else if code = cfg.cmdXferEnd then .xferEnd payload
  else if code = cfg.cmdParamA then .paramA payload
  else if code = cfg.cmdParamB then .paramB payload
  else .unknown code payload

/-- The decoder of candidate frames: total on any bytes, rejecting by the name of the check that
failed. -/
def decode (cfg : Config) (raw : List Byte) : Except FrameError Instr :=
  match validate cfg raw with
  | .ok (code, payload) => .ok (instrOf cfg code payload)
  | .error e => .error e

/-- The command byte of an instruction's frame (R90, R94). -/
def Instr.code (cfg : Config) : Instr → Byte
  | .netConnect _ => cfg.cmdNetConnect
  | .netPassword _ => cfg.cmdNetPassword
  | .netConfirm _ => cfg.cmdNetConfirm
  | .fileStatus _ => cfg.cmdFileStatus
  | .xferStart _ => cfg.cmdXferStart
  | .xferEnd _ => cfg.cmdXferEnd
  | .paramA _ => cfg.cmdParamA
  | .paramB _ => cfg.cmdParamB
  | .unknown code _ => code
  | .success code => code
  | .errLen code => code
  | .errCksum code => code
  | .joinStatus _ => cfg.cmdNetConfirm
  | .fileStatusReply _ => cfg.cmdFileStatus

/-- The payload of an instruction's frame (R93, R94, R96). -/
def Instr.payload (cfg : Config) : Instr → List Byte
  | .netConnect name => name
  | .netPassword password => password
  | .netConfirm ignored => ignored
  | .fileStatus ignored => ignored
  | .xferStart payload => payload
  | .xferEnd ignored => ignored
  | .paramA ignored => ignored
  | .paramB ignored => ignored
  | .unknown _ ignored => ignored
  | .success _ => [cfg.rspSuccess]
  | .errLen _ => [cfg.rspLenMismatch]
  | .errCksum _ => [cfg.rspCksumFailed]
  | .joinStatus status => [status]
  | .fileStatusReply record => record

/-- The encoder: the bytes of an instruction's frame. -/
def encode (cfg : Config) (i : Instr) : List Byte := frame cfg (i.code cfg) (i.payload cfg)

/-- The sent forms that a code and a payload can be read as (R94). There may be several: a join
status of `0x01` or `0x02` gives the bytes of an error form (R95). -/
def sentReadings (cfg : Config) (code : Byte) (payload : List Byte) : List Instr :=
  (if payload = [cfg.rspSuccess] ∧ code ∈ cfg.successCodes then [.success code] else []) ++
  (if payload = [cfg.rspLenMismatch] then [.errLen code] else []) ++
  (if payload = [cfg.rspCksumFailed] then [.errCksum code] else []) ++
  (if code = cfg.cmdNetConfirm then
    match payload with
    | [status] => [.joinStatus status]
    | _ => []
   else []) ++
  (if code = cfg.cmdFileStatus ∧ payload.length = cfg.statusLen ∧ statusFieldsFixed payload then
    [.fileStatusReply payload]
   else [])

/-- The sent forms whose frame a byte sequence is, as a peer reads them; the engine itself decodes
no sent form (R106). -/
def decodeSent (cfg : Config) (raw : List Byte) : Except FrameError (List Instr) :=
  match validate cfg raw with
  | .ok (code, payload) => .ok (sentReadings cfg code payload)
  | .error e => .error e

/-- A request row of the opcode table as R106 reads it: `match` and `mask` over the first two bytes
of a frame, byte 0 in bits 15:8 and byte 1 in bits 7:0. -/
structure OpcodeRow where
  mnemonic : String
  pattern : BitVec 16
  mask : BitVec 16
  deriving DecidableEq, Repr

/-- The rows with `"direction": "rx"`, in the table's order; UNKNOWN is last. -/
def requestRows : List OpcodeRow :=
  [⟨"NET_CONNECT", 0xA510#16, 0xFFFF#16⟩, ⟨"NET_PASSWORD", 0xA511#16, 0xFFFF#16⟩,
    ⟨"NET_CONFIRM", 0xA512#16, 0xFFFF#16⟩, ⟨"FILE_STATUS", 0xA513#16, 0xFFFF#16⟩,
    ⟨"XFER_START", 0xA514#16, 0xFFFF#16⟩, ⟨"XFER_END", 0xA515#16, 0xFFFF#16⟩,
    ⟨"PARAM_A", 0xA516#16, 0xFFFF#16⟩, ⟨"PARAM_B", 0xA517#16, 0xFFFF#16⟩,
    ⟨"UNKNOWN", 0xA500#16, 0xFF00#16⟩]

/-- The mnemonic of the first row that a frame's first two bytes select (R106). -/
def selectRow (byte0 byte1 : Byte) : Option String :=
  let key : BitVec 16 := byte0 ++ byte1
  (requestRows.find? fun row => key &&& row.mask == row.pattern).map (·.mnemonic)

/-- An instruction's mnemonic in the opcode table. -/
def Instr.mnemonic : Instr → String
  | .netConnect _ => "NET_CONNECT"
  | .netPassword _ => "NET_PASSWORD"
  | .netConfirm _ => "NET_CONFIRM"
  | .fileStatus _ => "FILE_STATUS"
  | .xferStart _ => "XFER_START"
  | .xferEnd _ => "XFER_END"
  | .paramA _ => "PARAM_A"
  | .paramB _ => "PARAM_B"
  | .unknown _ _ => "UNKNOWN"
  | .success _ => "SUCCESS"
  | .errLen _ => "ERR_LEN"
  | .errCksum _ => "ERR_CKSUM"
  | .joinStatus _ => "JOIN_STATUS"
  | .fileStatusReply _ => "FILE_STATUS_REPLY"

/-- The frame that a table word stands for. The table gives the first two bytes, byte 0 in bits 15:8
(R106). Every operand bit is zero, so the data length is 0, there is no payload and its checksum is
`0x00`; the footer is no operand but fixed by the format (R82). DESIGN CHOICE, safe: log 10. -/
def tableFrame (cfg : Config) (nbits w : Nat) : List Byte :=
  let word := w % 2 ^ nbits
  [BitVec.ofNat 8 (word / 256), BitVec.ofNat 8 word, 0x00#8, 0x00#8, cfg.footer]

/-- The instruction the decoder reads from a table word, under the default configuration. -/
def decodeTableWord (nbits w : Nat) : Option Instr :=
  match decode Config.standard (tableFrame Config.standard nbits w) with
  | .ok i => some i
  | .error _ => none

end Sys2Proof
end

