-- ==== Sys2Proof/Machine/State.lean ====
section
/-! DEFINITION. The state: the seven elements of 10_state.md R20, and beside them, as plain data, what
R35 calls parameters of the step relation (the configuration, the streams to come, the collaborators'
answers: log 2) and what R331 calls the observation of a run (frames sent, calls made, events raised:
log 9). `writeIndex` and `expectedLength` are exact counts, not words: DEDUCED, safe: log 13. -/

namespace Sys2Proof.Machine

/-- The cells of a buffer that have been written, as (index, byte) pairs with strictly rising indices.
What an unlisted cell reads as is said in Machine/Ops.lean. -/
abbrev Memory := List Host.Cell

/-- Which of the engine's steps comes next (R62, R330). A FINALIZE has no turn: it has "no trigger of
its own" (D22) and runs within the step that executes XFER_END (R252). -/
inductive Turn where
  /-- An ENGINE_STEP, on the next receive byte. -/
  | command
  /-- A WRITECHUNK, on the next `n` bulk bytes. -/
  | bulk (n : Nat)
  deriving DecidableEq, Repr

/-- LOOM's TransferSession (R29). -/
structure Session where
  targetKind : Category
  name : List Byte
  handle : Handle
  deriving DecidableEq, Repr

/-- A collaborator call with its arguments, and its answer where it has one (R285). `sendBytes` is
recorded in `State.transmitted`. `unitCount` stands for `readHeaderField` and the derivation LOOM
does not give (R102, R200). -/
inductive Call where
  | openWritable (name : List Byte) (answer : Option Handle)
  | write (handle : Handle) (bytes : List Byte)
  | close (handle : Handle)
  | unitCount (category : Category) (name : List Byte) (answer : Count)
  | initiateJoin (ssid password : List Byte)
  | queryJoinStatus (answer : Byte)
  deriving DecidableEq, Repr

/-- A diagnostic event, with the command byte where R261 records one (R262). -/
inductive Diagnostic where
  | overflow
  | lengthTooLarge
  | malformed
  | lengthMismatch (code : Byte)
  | checksumFailed (code : Byte)
  | unknownCommand (code : Byte)
  | storageOpenFailure (code : Byte)
  deriving DecidableEq, Repr

/-- The state. -/
structure State where
  /-- The configuration record; it never changes during a run (R7, R332). -/
  cfg : Config
  /-- The receive buffer, `rx_buf` (R21). -/
  rxBuf : Memory
  /-- How many bytes of the frame in flight are stored (R22). -/
  writeIndex : Nat
  /-- The length of the frame in flight, 0 meaning unknown (R23). -/
  expectedLength : Nat
  /-- The most recently submitted network name (R28). -/
  pendingName : List Byte
  /-- The active transfer session (R29). -/
  session : Option Session
  /-- `lastName[BODY]` (R30). -/
  lastNameBody : List Byte
  /-- `lastName[BORDER]` (R30). -/
  lastNameBorder : List Byte
  /-- The transmit staging buffer, `tx_buf` (R32). -/
  txBuf : Memory
  /-- The bytes of the receive stream not yet taken (R51). -/
  rxStream : List Byte
  /-- The bytes of the bulk stream not yet taken (R250). -/
  bulkStream : List Byte
  /-- The rest of the interleaving of the two streams (R62). -/
  schedule : List Turn
  /-- The coming answers of `queryJoinStatus` (R285). -/
  joinAnswers : List Byte
  /-- The coming answers of `openWritable` (R285). -/
  openAnswers : List (Option Handle)
  /-- The coming answers of `unitCount` (R285). -/
  countAnswers : List Count
  /-- How many answers have been drawn. The model's own field, which numbers the free values. -/
  draws : Nat
  /-- The frames handed to `TxSend`, oldest first (R56, R331). -/
  transmitted : List (List Byte)
  /-- The collaborator calls, oldest first (R285, R331). -/
  calls : List Call
  /-- The diagnostic events, oldest first (R262, R331). -/
  events : List Diagnostic
  deriving DecidableEq, Repr

/-- Why the machine stops with a fault. -/
inductive Fault where
  /-- Raised by ENCODE for a payload longer than the transmit bound; "a model faults on it" (R233,
  U5). Safe: the machine stops. -/
  | replyTooLong (length : Nat)
  deriving DecidableEq, Repr

/-- Why an instruction has no meaning. -/
inductive Refusal where
  /-- Raised by an arm of `exec` that has no meaning yet. Safe: the machine stops. -/
  | notModelled (mnemonic : String)
  /-- Raised by XFER_START, under the policy `StartPolicy.refuse` only, for a payload the spec does
  not define (R209, U3, U4). Safe: the machine stops. -/
  | startPayloadUndefined
  deriving DecidableEq, Repr

/-- The start of a run (R331): the engine's elements at their reset values (R300), under a given
configuration, with given streams, interleaving and answers. -/
def State.initial (cfg : Config) (rx bulk : List Byte) (schedule : List Turn) (joins : List Byte)
    (opens : List (Option Handle)) (counts : List Count) : State where
  cfg := cfg
  rxBuf := []
  writeIndex := 0
  expectedLength := 0
  pendingName := []
  session := none
  lastNameBody := List.replicate cfg.nameFieldLen 0x00#8
  lastNameBorder := List.replicate cfg.nameFieldLen 0x00#8
  txBuf := []
  rxStream := rx
  bulkStream := bulk
  schedule := schedule
  joinAnswers := joins
  openAnswers := opens
  countAnswers := counts
  draws := 0
  transmitted := []
  calls := []
  events := []

/-- The machine right after reset (R300), under the default configuration, with nothing waiting in
the transports and no answer fixed. -/
def State.reset : State := State.initial Config.standard [] [] [] [] [] []

end Sys2Proof.Machine
end

