-- ==== Sys2Proof/Machine/Flags.lean ====
section
/-! DEFINITION. The engine has no stored flag (10_state.md R33). The two predicates that rules test
are computed from state. -/

namespace Sys2Proof.Machine

/-- "Seeking" (R24, R33). -/
abbrev State.seeking (s : State) : Prop := s.writeIndex = 0

/-- "Length known" (R23, R33). -/
abbrev State.lengthKnown (s : State) : Prop := s.expectedLength ≠ 0

end Sys2Proof.Machine
end

