-- ==== Sys2Proof/Machine/Operands.lean ====
section
/-! DEFINITION. How handlers read payloads (30_encoding.md R96) and how the status record is laid out
(R100 to R102). -/

namespace Sys2Proof.Machine

/-- `pad0(s, n)`: `s` followed by zeros up to `n` bytes (R15). -/
def pad0 (bytes : List Byte) (n : Nat) : List Byte :=
  bytes ++ List.replicate (n - bytes.length) 0x00#8

/-- `le32(v)`: least significant byte first (R14, R54). -/
def le32 (v : Count) : List Byte :=
  [v.extractLsb' 0 8, v.extractLsb' 8 8, v.extractLsb' 16 8, v.extractLsb' 24 8]

/-- `catOf(x)`: the category a category byte selects (R191). -/
def catOf (cfg : Config) (x : Byte) : Option Category :=
  if x = cfg.catBody then some .body
  else if x = cfg.catBorder then some .border
  else none

/-- `fieldOf(nm)`: the name field of a received name (R101, R191). -/
def fieldOf (cfg : Config) (name : List Byte) : List Byte :=
  pad0 (name.take cfg.nameVisibleMax) cfg.nameFieldLen

/-- The empty name field (R30, R101). -/
def emptyName (cfg : Config) : List Byte := List.replicate cfg.nameFieldLen 0x00#8

/-- The operands of XFER_START: the category that `p[0]` selects, and the name `p[1:N)` (R96, R204);
none where R209 leaves the payload undefined. -/
def startOperands (cfg : Config) (payload : List Byte) : Option (Category × List Byte) :=
  match payload with
  | [] => none
  | x :: name =>
    match catOf cfg x with
    | some category => some (category, name)
    | none => none

/-- The 48-byte status record: body first, border second (R100, R200). -/
def statusRecord (bodyTotal borderTotal : Count) (bodyName borderName : List Byte) : List Byte :=
  le32 bodyTotal ++ List.replicate 4 0x00#8 ++ bodyName ++
    (le32 borderTotal ++ List.replicate 4 0x00#8 ++ borderName)

end Sys2Proof.Machine
end

