-- ==== Sys2Proof/Machine/Ops.lean ====
section
/-! DEFINITION. The shared operations: buffer cells, the observation, the collaborators' answers
(60_exceptions.md R285), sending a frame, and meeting one of the eight conditions (R261). -/

namespace Sys2Proof.Machine

/-! ### Buffer cells -/

/-- The byte a cell holds, none for a cell that nothing has written. -/
def Memory.read? : Memory → Nat → Option Byte
  | [], _ => none
  | (k, v) :: rest, a => if a = k then some v else Memory.read? rest a

/-- Write one cell, keeping the indices strictly rising. -/
def Memory.write : Memory → Nat → Byte → Memory
  | [], a, b => [(a, b)]
  | (k, v) :: rest, a, b =>
    if a < k then (a, b) :: (k, v) :: rest
    else if a = k then (a, b) :: rest
    else (k, v) :: Memory.write rest a b

/-- Write consecutive cells from index `a` up. -/
def Memory.store : Memory → Nat → List Byte → Memory
  | m, _, [] => m
  | m, a, b :: rest => Memory.store (Memory.write m a b) (a + 1) rest

/-- What a cell reads as. FREE VALUE for a cell that nothing has written (R21, U19): log 3. -/
def Memory.cell (m : Memory) (a : Nat) : Byte := (m.read? a).getD (Config.unspecifiedCell a)

/-- `m[0:n)`. -/
def Memory.slice (m : Memory) (n : Nat) : List Byte := (List.range n).map m.cell

/-- The canonical form of a buffer of `capacity` cells: strictly rising indices below the capacity. -/
abbrev Memory.wf (capacity : Nat) (m : Memory) : Prop :=
  (m.map Prod.fst).Pairwise (· < ·) ∧ ∀ x ∈ m, x.1 < capacity

/-! ### The observation -/

/-- Record a diagnostic event: `emit` (R15). -/
def State.emit (s : State) (e : Diagnostic) : State := { s with events := s.events ++ [e] }

/-- Record a collaborator call (R285). -/
def State.record (s : State) (c : Call) : State := { s with calls := s.calls ++ [c] }

/-! ### Collaborators -/

/-- What `queryJoinStatus` will answer. FREE VALUE past the answers already fixed (R198, U12): log 8. -/
def State.nextJoin (s : State) : Byte :=
  match s.joinAnswers with
  | answer :: _ => answer
  | [] => Config.freeJoinStatus s.draws

/-- What `openWritable` will answer. FREE VALUE past the answers already fixed (R207, U14): log 8. -/
def State.nextOpen (s : State) : Option Handle :=
  match s.openAnswers with
  | answer :: _ => answer
  | [] => Config.freeOpen s.draws

/-- What `unitCount` will answer. FREE VALUE past the answers already fixed (R102, U13): log 8. -/
def State.nextCount (s : State) : Count :=
  match s.countAnswers with
  | answer :: _ => answer
  | [] => Config.freeUnitCount s.draws

/-- `call queryJoinStatus()`: the answer and the state after the call. -/
def queryJoinStatus (s : State) : Byte × State :=
  (s.nextJoin,
    { s with joinAnswers := s.joinAnswers.tail, draws := s.draws + 1 }.record
      (.queryJoinStatus s.nextJoin))

/-- `call openWritable(name)`: a handle, or none for failure. -/
def openWritable (name : List Byte) (s : State) : Option Handle × State :=
  (s.nextOpen,
    { s with openAnswers := s.openAnswers.tail, draws := s.draws + 1 }.record
      (.openWritable name s.nextOpen))

/-- `call unitCount(c, name)`. -/
def unitCount (category : Category) (name : List Byte) (s : State) : Count × State :=
  (s.nextCount,
    { s with countAnswers := s.countAnswers.tail, draws := s.draws + 1 }.record
      (.unitCount category name s.nextCount))

/-! ### The dispatcher's state -/

/-- `lastName[c]` (R30). -/
def State.lastName (s : State) : Category → List Byte
  | .body => s.lastNameBody
  | .border => s.lastNameBorder

/-- `lastName[c] <- field` (R206). -/
def State.setLastName (s : State) (category : Category) (field : List Byte) : State :=
  match category with
  | .body => { s with lastNameBody := field }
  | .border => { s with lastNameBorder := field }

/-- `total[c]` of R200: 0 with no call for the empty name, else the collaborator's answer. -/
def total (category : Category) (s : State) : Count × State :=
  if s.lastName category = emptyName s.cfg then (0, s)
  else unitCount category (s.lastName category) s

/-- Close and clear the session if there is one: the state change of XFER_END (R212), FINALIZE (R252)
and of XFER_START during a session (R205). -/
def closeSession (s : State) : State :=
  match s.session with
  | some active => { s with session := none }.record (.close active.handle)
  | none => s

/-! ### Sending -/

/-- `TxSend(f)`: the frame is staged in `tx_buf` (R32) and handed over whole (R56). Staging every frame
from cell 0 up: DESIGN CHOICE, unsafe for the contents of `tx_buf` only: log 11. -/
def State.txSend (s : State) (f : List Byte) : State :=
  { s with txBuf := s.txBuf.store 0 f, transmitted := s.transmitted ++ [f] }

/-- `TxSend(ENCODE(c, p))` (R170, R230). A payload over the transmit bound faults (R233, U5). -/
def reply (code : Byte) (payload : List Byte) (s : State) : Host.Outcome State Fault Refusal :=
  if s.cfg.fitsTx payload.length then .next (s.txSend (frame s.cfg code payload))
  else .fault (.replyTooLong payload.length)

/-! ### The eight conditions: the engine's exceptions -/

/-- The conditions of R261, with the command byte each records. -/
inductive Condition where
  | seekDiscard
  | overflow
  | lengthTooLarge
  | malformed
  | lengthMismatch (code : Byte)
  | checksumFailed (code : Byte)
  | unknownCommand (code : Byte)
  | storageOpenFailure (code : Byte)
  deriving DecidableEq, Repr

/-- The event of a condition: one of the same name, none for SeekDiscard (R262). -/
def Condition.event? : Condition → Option Diagnostic
  | .seekDiscard => none
  | .overflow => some .overflow
  | .lengthTooLarge => some .lengthTooLarge
  | .malformed => some .malformed
  | .lengthMismatch code => some (.lengthMismatch code)
  | .checksumFailed code => some (.checksumFailed code)
  | .unknownCommand code => some (.unknownCommand code)
  | .storageOpenFailure code => some (.storageOpenFailure code)

/-- The command byte and wire code of a condition's error response; "only two conditions have one"
(R261). -/
def Condition.response? (cfg : Config) : Condition → Option (Byte × Byte)
  | .lengthMismatch code => some (code, cfg.rspLenMismatch)
  | .checksumFailed code => some (code, cfg.rspCksumFailed)
  | .seekDiscard | .overflow | .lengthTooLarge | .malformed | .unknownCommand _
  | .storageOpenFailure _ => none

/-- "Reset to empty": the cells are left as they are (R26). -/
def State.resetReassembly (s : State) : State := { s with writeIndex := 0, expectedLength := 0 }

/-- The state effect of a condition (R261). The `session = none` of StorageOpenFailure holds already
when it is met (R205, R208). -/
def Condition.effect (c : Condition) (s : State) : State :=
  match c with
  | .overflow | .lengthTooLarge => s.resetReassembly
  | .seekDiscard | .malformed | .lengthMismatch _ | .checksumFailed _ | .unknownCommand _
  | .storageOpenFailure _ => s

/-- Meet a condition, up to its response: its state effect and its event. -/
def raise (c : Condition) (s : State) : State :=
  match c.event? with
  | some e => (c.effect s).emit e
  | none => c.effect s

/-- Meet a condition: the whole row of R261 (R272). Nothing is saved and there is no return: the
engine is at once ready for the next byte (R273). -/
def takeCondition (c : Condition) (s : State) : Host.Outcome State Fault Refusal :=
  match c.response? s.cfg with
  | some (code, result) => reply code [result] (raise c s)
  | none => .next (raise c s)

end Sys2Proof.Machine
end

