-- ==== Sys2Proof/Machine/Network.lean ====
section
/-! DEFINITION. The credential flow: NET_CONNECT, NET_PASSWORD, NET_CONFIRM (43_commands.md R192 to
R198). Each meaning is the handler and its reply path (R176). -/

namespace Sys2Proof.Machine

/-- NET_CONNECT (R192): the name replaces `pendingName`; SUCCESS. -/
def execNetConnect (name : List Byte) (s : State) : Host.Outcome State Fault Refusal :=
  reply s.cfg.cmdNetConnect [s.cfg.rspSuccess] { s with pendingName := name }

/-- NET_PASSWORD (R195): start a join with `pendingName`, which is left unchanged; SUCCESS whatever
becomes of the join. -/
def execNetPassword (password : List Byte) (s : State) : Host.Outcome State Fault Refusal :=
  reply s.cfg.cmdNetPassword [s.cfg.rspSuccess] (s.record (.initiateJoin s.pendingName password))

/-- NET_CONFIRM (R198): the join status byte, verbatim; the payload is ignored. -/
def execNetConfirm (_ignored : List Byte) (s : State) : Host.Outcome State Fault Refusal :=
  reply s.cfg.cmdNetConfirm [(queryJoinStatus s).1] (queryJoinStatus s).2

end Sys2Proof.Machine
end

