-- ==== Sys2Proof/Machine/Replies.lean ====
section
/-! DEFINITION. The sent forms (30_encoding.md R94): each builds its frame and hands it to `TxSend`.
The two error forms are the error arms of 42_dispatcher.md R170, event included. That a sent form is an
instruction of its own: DESIGN CHOICE, safe: log 1. -/

namespace Sys2Proof.Machine

/-- SUCCESS: `frame(cc, [RSP_SUCCESS])` (R190). -/
def execSuccess (code : Byte) (s : State) : Host.Outcome State Fault Refusal :=
  reply code [s.cfg.rspSuccess] s

/-- ERR_LEN: what a LengthMismatch brings about (R170, R266). -/
def execErrLen (code : Byte) (s : State) : Host.Outcome State Fault Refusal :=
  takeCondition (.lengthMismatch code) s

/-- ERR_CKSUM: what a ChecksumFailed brings about (R170, R267). -/
def execErrCksum (code : Byte) (s : State) : Host.Outcome State Fault Refusal :=
  takeCondition (.checksumFailed code) s

/-- JOIN_STATUS: `frame(CMD_NET_CONFIRM, [status])` (R198). -/
def execJoinStatus (status : Byte) (s : State) : Host.Outcome State Fault Refusal :=
  reply s.cfg.cmdNetConfirm [status] s

/-- FILE_STATUS_REPLY: `frame(CMD_FILE_STATUS, record)` (R200). -/
def execFileStatusReply (record : List Byte) (s : State) : Host.Outcome State Fault Refusal :=
  reply s.cfg.cmdFileStatus record s

end Sys2Proof.Machine
end

