-- ==== Sys2Proof/Machine/Bulk.lean ====
section
/-! DEFINITION. The bulk channel: WRITECHUNK and FINALIZE (45_bulk_channel.md R251, R252). -/

namespace Sys2Proof.Machine

/-- WRITECHUNK on the next `n` bulk bytes (R251): they are consumed, and appended to the open handle
if there is one. An empty chunk is nothing (V62). -/
def writeChunk (n : Nat) (s : State) : State :=
  let taken := { s with bulkStream := s.bulkStream.drop n }
  match s.bulkStream.take n, s.session with
  | [], _ => s
  | _ :: _, none => taken
  | b :: rest, some active => taken.record (.write active.handle (b :: rest))

/-- FINALIZE (R252). Its one caller is XFER_END. -/
def finalize (s : State) : State := closeSession s

end Sys2Proof.Machine
end

