-- ==== Sys2Proof/Machine/Transfer.lean ====
section
/-! DEFINITION. The file commands: FILE_STATUS, XFER_START, XFER_END (43_commands.md R200 to R213). -/

namespace Sys2Proof.Machine

/-- FILE_STATUS (R200): body first, border second; the first STATUS_LEN bytes of the record. The
payload is ignored. -/
def execFileStatus (_ignored : List Byte) (s : State) : Host.Outcome State Fault Refusal :=
  let body := total .body s
  let border := total .border body.2
  reply s.cfg.cmdFileStatus
    ((statusRecord body.1 border.1 s.lastNameBody s.lastNameBorder).take s.cfg.statusLen) border.2

/-- The end of XFER_START on a successful open (R204, R206). -/
def startOpened (category : Category) (name : List Byte) (handle : Handle) (s : State) :
    Host.Outcome State Fault Refusal :=
  reply s.cfg.cmdXferStart [s.cfg.rspSuccess]
    ({ s with session := some ⟨category, name, handle⟩ }.setLastName category
      (fieldOf s.cfg name))

/-- The end of XFER_START on a failed open (R208): no response. -/
def startFailed (category : Category) (name : List Byte) (s : State) :
    Host.Outcome State Fault Refusal :=
  takeCondition (.storageOpenFailure s.cfg.cmdXferStart)
    (if s.cfg.updateNameOnOpenFailure then s.setLastName category (fieldOf s.cfg name) else s)

/-- XFER_START with operands (R204 to R208): close a session already active, then open. -/
def startTransfer (category : Category) (name : List Byte) (s : State) :
    Host.Outcome State Fault Refusal :=
  match openWritable name (closeSession s) with
  | (some handle, t) => startOpened category name handle t
  | (none, t) => startFailed category name t

/-- XFER_START with a payload the spec does not define (R209, U3, U4): the configuration's policy. -/
def startUndefined (s : State) : Host.Outcome State Fault Refusal :=
  match s.cfg.startBadPayload with
  | .hardware => takeCondition (.storageOpenFailure s.cfg.cmdXferStart) s
  | .refuse => .refused .startPayloadUndefined

/-- XFER_START (R204). -/
def execXferStart (payload : List Byte) (s : State) : Host.Outcome State Fault Refusal :=
  match startOperands s.cfg payload with
  | some (category, name) => startTransfer category name s
  | none => startUndefined s

/-- XFER_END (R212): FINALIZE, which closes and clears the session if there is one; SUCCESS
unconditionally. The payload is ignored. -/
def execXferEnd (_ignored : List Byte) (s : State) : Host.Outcome State Fault Refusal :=
  reply s.cfg.cmdXferEnd [s.cfg.rspSuccess] (finalize s)

end Sys2Proof.Machine
end

