-- ==== Sys2Proof/Machine/Unhandled.lean ====
section
/-! DEFINITION. The commands with no handler: PARAM_A, PARAM_B (43_commands.md R215, R216) and every
other code (42_dispatcher.md R174). No state change, no call, no response; a local event. -/

namespace Sys2Proof.Machine

/-- PARAM_A (R215). -/
def execParamA (_ignored : List Byte) (s : State) : Host.Outcome State Fault Refusal :=
  takeCondition (.unknownCommand s.cfg.cmdParamA) s

/-- PARAM_B (R216). -/
def execParamB (_ignored : List Byte) (s : State) : Host.Outcome State Fault Refusal :=
  takeCondition (.unknownCommand s.cfg.cmdParamB) s

/-- UNKNOWN (R174). -/
def execUnknown (code : Byte) (_ignored : List Byte) (s : State) :
    Host.Outcome State Fault Refusal :=
  takeCondition (.unknownCommand code) s

end Sys2Proof.Machine
end

