-- ==== Sys2Proof/Machine/Dispatch.lean ====
section
/-! DEFINITION. One arm per instruction, each a direct call of its meaning. -/

namespace Sys2Proof.Machine

def exec (i : Instr) (s : State) : Host.Outcome State Fault Refusal :=
  match i with
  | .netConnect name => Sys2Proof.Machine.execNetConnect name s
  | .netPassword password => Sys2Proof.Machine.execNetPassword password s
  | .netConfirm ignored => Sys2Proof.Machine.execNetConfirm ignored s
  | .fileStatus ignored => Sys2Proof.Machine.execFileStatus ignored s
  | .xferStart payload => Sys2Proof.Machine.execXferStart payload s
  | .xferEnd ignored => Sys2Proof.Machine.execXferEnd ignored s
  | .paramA ignored => Sys2Proof.Machine.execParamA ignored s
  | .paramB ignored => Sys2Proof.Machine.execParamB ignored s
  | .unknown code ignored => Sys2Proof.Machine.execUnknown code ignored s
  | .success code => Sys2Proof.Machine.execSuccess code s
  | .errLen code => Sys2Proof.Machine.execErrLen code s
  | .errCksum code => Sys2Proof.Machine.execErrCksum code s
  | .joinStatus status => Sys2Proof.Machine.execJoinStatus status s
  | .fileStatusReply record => Sys2Proof.Machine.execFileStatusReply record s

end Sys2Proof.Machine
end

