-- ==== Sys2Proof/Machine/Framer.lean ====
section
/-! DEFINITION. The framer: FEED (40_reassembler.md R124). -/

namespace Sys2Proof.Machine

/-- What one FEED answers (R16, R120). -/
inductive FrameEvent where
  | none
  | complete (raw : List Byte)
  | overflow
  | lengthTooLarge
  deriving DecidableEq, Repr

/-- Store a byte at `writeIndex` and advance it (R123). -/
def State.append (s : State) (b : Byte) : State :=
  { s with rxBuf := s.rxBuf.write s.writeIndex b, writeIndex := s.writeIndex + 1 }

/-- The completion test (R126). -/
def complete? (s : State) : FrameEvent × State :=
  if s.lengthKnown ∧ s.writeIndex = s.expectedLength then
    (.complete (s.rxBuf.slice s.expectedLength), s.resetReassembly)
  else (.none, s)

/-- The length the third byte declares, overhead included, formed without wrap (R85, R125). -/
def State.declaredLength (s : State) : Nat := (s.rxBuf.cell 2).toNat + s.cfg.overhead

/-- Length extraction, in the FEED that stores the third byte (R125), then the completion test. -/
def extractLength (s : State) : FrameEvent × State :=
  if s.writeIndex = 3 then
    if s.cfg.rxCapacity < s.declaredLength then (.lengthTooLarge, raise .lengthTooLarge s)
    else complete? { s with expectedLength := s.declaredLength }
  else complete? s

/-- FEED (R124): phase, capacity, append, length extraction, completion, in that order (R128). -/
def feed (b : Byte) (s : State) : FrameEvent × State :=
  if s.seeking then
    if b = s.cfg.header then
      (.none, { s with rxBuf := s.rxBuf.write 0 b, writeIndex := 1, expectedLength := 0 })
    else (.none, raise .seekDiscard s)
  else if s.cfg.rxCapacity ≤ s.writeIndex then (.overflow, raise .overflow s)
  else extractLength (s.append b)

/-- FEED on each byte in turn: the events, and the state after the last. -/
def feedAll : List Byte → State → List FrameEvent × State
  | [], s => ([], s)
  | b :: rest, s =>
    ((feed b s).1 :: (feedAll rest (feed b s).2).1, (feedAll rest (feed b s).2).2)

end Sys2Proof.Machine
end

