-- ==== Sys2Proof/Machine/Engine.lean ====
section
/-! DEFINITION. ENGINE_STEP (42_dispatcher.md R170), and which of the engine's steps comes next
(20_memory.md R62, 70_reset_and_hazards.md R330). -/

namespace Sys2Proof.Machine

/-- What the engine executes for a candidate frame (R170): the request it decodes, or the error form
that answers it; nothing for a malformed one. -/
def instrOfFrame (cfg : Config) (raw : List Byte) : Option Instr :=
  match decode cfg raw with
  | .ok i => some i
  | .error .malformed => none
  | .error (.lengthMismatch code) => some (.errLen code)
  | .error (.checksumFailed code) => some (.errCksum code)

/-- What follows a `Complete` event (R170). -/
def runFrame (raw : List Byte) (s : State) : Host.Outcome State Fault Refusal :=
  match instrOfFrame s.cfg raw with
  | some i => exec i s
  | none => takeCondition .malformed s

/-- What follows a FEED (R170). -/
def afterFeed : FrameEvent × State → Host.Outcome State Fault Refusal
  | (.none, s) => .next s
  | (.overflow, s) => .next s
  | (.lengthTooLarge, s) => .next s
  | (.complete raw, s) => runFrame raw s

/-- ENGINE_STEP on a receive byte already taken from the stream (R52, R170). -/
def engineStep (b : Byte) (s : State) : Host.Outcome State Fault Refusal := afterFeed (feed b s)

/-- The turn the ports take when the schedule says nothing: the command channel is served first, the
bulk channel one byte per transfer (R42, R253). DESIGN CHOICE, safe: log 7. -/
def portTurn (s : State) : Turn :=
  match s.rxStream with
  | _ :: _ => .command
  | [] => .bulk 1

/-- The next turn: the schedule's, else the ports'. -/
def nextTurn (s : State) : Turn :=
  match s.schedule with
  | turn :: _ => turn
  | [] => portTurn s

/-- Serve one turn. A command turn with no byte waits, and an idle engine holds its state (R52, R288):
log 7. -/
def serve (turn : Turn) (s : State) : Host.Outcome State Fault Refusal :=
  match turn with
  | .command =>
    match s.rxStream with
    | b :: rest => engineStep b { s with rxStream := rest }
    | [] => .next s
  | .bulk n => .next (writeChunk n s)

/-- One step: serve the next turn and drop it from the schedule. -/
def takeTurn (s : State) : Host.Outcome State Fault Refusal :=
  serve (nextTurn s) { s with schedule := s.schedule.tail }

/-- The instruction that the next step executes, if it executes one. -/
def nextInstr (s : State) : Option Instr :=
  match nextTurn s, s.rxStream with
  | .command, b :: rest =>
    match (feed b { s with rxStream := rest, schedule := s.schedule.tail }).1 with
    | .complete raw => instrOfFrame s.cfg raw
    | .none | .overflow | .lengthTooLarge => none
  | .command, [] => none
  | .bulk _, _ => none

/-- A state about to receive the last byte of a frame: all bytes but the last are in the receive
buffer, the last is next on the receive stream, and the next turn is the command channel's. -/
def State.withPendingFrame (s : State) (bytes : List Byte) : State :=
  { s with
    rxBuf := s.rxBuf.store 0 bytes.dropLast
    writeIndex := bytes.length - 1
    expectedLength := bytes.length
    rxStream := bytes.drop (bytes.length - 1) ++ s.rxStream
    schedule := .command :: s.schedule }

end Sys2Proof.Machine
end

