-- ==== Sys2Proof/Machine/Step.lean ====
section
/-! DEFINITION. The step of the engine, and how an instruction is placed where the step fetches it. -/

namespace Sys2Proof.Machine

/-- One step of the engine: an ENGINE_STEP, which runs a FINALIZE where it executes XFER_END, or a
WRITECHUNK (R330). -/
def step (s : State) : Host.Outcome State Fault Refusal := takeTurn s

/-- A state whose next step receives the last byte of the frame of a table word: log 10. -/
def State.withFetchWord (s : State) (nbits w : Nat) : State :=
  s.withPendingFrame (tableFrame s.cfg nbits w)

end Sys2Proof.Machine
end

