-- ==== Sys2Proof/Machine/Ports.lean ====
section
/-! DEFINITION. The port binding of 10_state.md R40 to R45, as functions of a step: what the signals
carry, not when (70_reset_and_hazards.md R325): DESIGN CHOICE, safe, log 12. "No rule outside rules R40
to R46 depends on a signal name or on a clock cycle", and nothing else of the model depends on this
file. -/

namespace Sys2Proof.Machine

/-- `rx_valid`: a receive byte is offered (R40). DESIGN CHOICE, safe: the receive transport offers its
next byte when the command channel's turn has come, and no byte while the schedule gives the turn to
the bulk channel; so the ports read as R42 wants under every interleaving of R62: log 12. -/
def State.rxValid (s : State) : Bool :=
  match nextTurn s with
  | .command => !s.rxStream.isEmpty
  | .bulk _ => false

/-- `rx_data`, while `rx_valid` is 1 (R40). -/
def State.rxData (s : State) : Option Byte := s.rxStream.head?

/-- `bulk_data`, while `bulk_valid` is 1 (R42). -/
def State.bulkData (s : State) : Option Byte := s.bulkStream.head?

/-- `bulk_valid`: a bulk byte is offered (R42). DESIGN CHOICE, safe: the bulk transport offers its next
byte at its own turn, unless the chunk is empty, and beside a receive byte, which is then served
first: log 12. -/
def State.bulkValid (s : State) : Bool :=
  match nextTurn s with
  | .command => s.rxValid && !s.bulkStream.isEmpty
  | .bulk n => n != 0 && !s.bulkStream.isEmpty

/-- `rx_ready` between two steps: everything the last byte caused has finished (R40). -/
def State.rxReady (_ : State) : Bool := true

/-- `bulk_ready` between two steps: 0 whenever `rx_valid` is 1 (R42). -/
def State.bulkReady (s : State) : Bool := !s.rxValid

/-- `tx_data` and `tx_last` of the transfers of one `TxSend`: `tx_last` on the final byte only
(R41). -/
def txTransfers : List Byte → List (Byte × Bool)
  | [] => []
  | [b] => [(b, true)]
  | b :: c :: rest => (b, false) :: txTransfers (c :: rest)

/-- The handler port of a command code: `H_CONNECT` = 0 to `H_END` = 5 (R43, R90). -/
def handlerPort (cfg : Config) (code : Byte) : Option (Fin 6) :=
  if code = cfg.cmdNetConnect then some 0
  else if code = cfg.cmdNetPassword then some 1
  else if code = cfg.cmdNetConfirm then some 2
  else if code = cfg.cmdFileStatus then some 3
  else if code = cfg.cmdXferStart then some 4
  else if code = cfg.cmdXferEnd then some 5
  else none

/-- What the dispatcher presents to a handler (R43): `h_sel`, `h_cmd`, `h_len` and the payload. -/
structure HandlerCall where
  sel : BitVec 6
  cmd : Byte
  len : Byte
  payload : List Byte
  deriving DecidableEq, Repr

/-- `h_pdata` at `h_paddr`, for `h_paddr < h_len` (R43). -/
def HandlerCall.pdata (h : HandlerCall) (paddr : BitVec 5) : Option Byte := h.payload[paddr.toNat]?

/-- The handler call that a request makes, if its command has a handler. -/
def handlerCall (cfg : Config) (i : Instr) : Option HandlerCall :=
  if i.isRequest then
    (handlerPort cfg (i.code cfg)).map fun port =>
      ⟨1#6 <<< port.val, i.code cfg, BitVec.ofNat 8 (i.payload cfg).length, i.payload cfg⟩
  else none

/-- `h_sel` of the next step: one-hot, or 0 where it runs no handler (R43, R177). -/
def State.handlerSelect (s : State) : BitVec 6 :=
  match (nextInstr s).bind (handlerCall s.cfg) with
  | some call => call.sel
  | none => 0#6

/-- The diagnostic event port (R45): the seven event signals in the order R45 lists them, the first
in bit 0, and `ev_cmd` for the last four. -/
structure EventPort where
  signals : BitVec 7
  cmd : Option Byte
  deriving DecidableEq, Repr

/-- The event port in the cycle an event is emitted. -/
def Diagnostic.port : Diagnostic → EventPort
  | .overflow => ⟨0b0000001#7, none⟩
  | .lengthTooLarge => ⟨0b0000010#7, none⟩
  | .malformed => ⟨0b0000100#7, none⟩
  | .lengthMismatch code => ⟨0b0001000#7, some code⟩
  | .checksumFailed code => ⟨0b0010000#7, some code⟩
  | .unknownCommand code => ⟨0b0100000#7, some code⟩
  | .storageOpenFailure code => ⟨0b1000000#7, some code⟩

/-- What the handler of a step returned (R43): the payload of the frame sent, whose presence is
`h_reply_valid` and whose length `h_reply_len`; none where no handler ran or it gave no response. -/
def handlerReply (before after : State) : Option (List Byte) :=
  if before.handlerSelect = 0#6 then none
  else (after.transmitted.drop before.transmitted.length).head?.map fun f =>
    (f.drop 3).take (f.length - 5)

/-- The event port with no event: every event signal is 0 (R46, R300). -/
def EventPort.idle : EventPort := ⟨0#7, none⟩

/-- The event port after a step, given the state before it: the event the step raised, if it raised
one. Events are not latched (R45). -/
def eventPort (before after : State) : EventPort :=
  match after.events.drop before.events.length with
  | [] => EventPort.idle
  | e :: _ => e.port

end Sys2Proof.Machine
end

