-- ==== Sys2Proof/Safety.lean ====
section
/-! DEFINITION. The invariants the spec states, and what counts as a safe run, in the terms claims
use. -/

namespace Sys2Proof.Machine

/-- The reassembly invariant (10_state.md R25). -/
structure ReassemblyInv (s : State) : Prop where
  below : s.writeIndex < s.cfg.rxCapacity
  unknown : s.writeIndex < 3 → s.expectedLength = 0
  known : 3 ≤ s.writeIndex →
    s.expectedLength = (s.rxBuf.cell 2).toNat + 5 ∧ 5 ≤ s.expectedLength ∧
      s.expectedLength ≤ s.cfg.rxCapacity ∧ s.writeIndex < s.expectedLength
  header : 1 ≤ s.writeIndex → s.rxBuf.cell 0 = s.cfg.header

/-- The buffers are in canonical form, and every cell of the frame in flight has been written: no
rule reads a stale or unspecified byte (R21). -/
structure BufferInv (s : State) : Prop where
  rx : s.rxBuf.wf s.cfg.rxCapacity
  tx : s.txBuf.wf s.cfg.txCapacity
  written : ∀ a < s.writeIndex, (s.rxBuf.read? a).isSome

/-- A name field as `fieldOf` makes them: 16 bytes, the last `0x00` (R30, R101). -/
def NameField (field : List Byte) : Prop := field.length = 16 ∧ field[15]? = some 0x00#8

/-- The shapes of the dispatcher's sub-states (R28, R29, R30). -/
structure ShapeInv (s : State) : Prop where
  pendingName : s.cfg.fitsRx s.pendingName.length
  sessionName : ∀ active ∈ s.session, s.cfg.fitsRx (active.name.length + 1)
  lastNameBody : NameField s.lastNameBody
  lastNameBorder : NameField s.lastNameBorder

/-- One call against the handle the engine owns: the handle owned after it, or none where the call
breaks the ownership rule. A successful open while a handle is owned would leak it; a write or a
close must be of the owned handle (R31, R64). -/
def ownerStep (owned : Option Handle) (c : Call) : Option (Option Handle) :=
  match c with
  | .openWritable _ answer => if owned = none then some answer else none
  | .write handle _ => if owned = some handle then some owned else none
  | .close handle => if owned = some handle then some none else none
  | .unitCount _ _ _ => some owned
  | .initiateJoin _ _ => some owned
  | .queryJoinStatus _ => some owned

/-- The handle the engine owns after a sequence of calls from reset, or none if some call broke the
ownership rule. -/
def ownedAfter (calls : List Call) : Option (Option Handle) := calls.foldlM ownerStep none

/-- The session invariant (R31): the calls made so far keep the ownership rule, and the handle they
leave owned is the session's. -/
def SessionInv (s : State) : Prop := ownedAfter s.calls = some (s.session.map (·.handle))

/-- Every frame sent is one of the five forms of R94. -/
def SentInv (s : State) : Prop :=
  ∀ f ∈ s.transmitted, ∃ i : Instr, i.isRequest = false ∧ i.wellFormed s.cfg ∧ f = encode s.cfg i

/-- The invariant of the machine, under a legal configuration (R333). -/
structure EngineInv (s : State) : Prop where
  legal : s.cfg.Legal
  reassembly : ReassemblyInv s
  buffers : BufferInv s
  shapes : ShapeInv s
  session : SessionInv s
  sent : SentInv s

/-- The start of a run: the reset state under a legal configuration, with any streams, interleaving
and answers (R331, R333). -/
def StartState (s : State) : Prop :=
  ∃ cfg rx bulk schedule joins opens counts,
    cfg.Legal ∧ s = State.initial cfg rx bulk schedule joins opens counts

/-- `k` steps, stopping at the first fault or refusal: `Host.Core.run` of this machine
(Laws/Step.lean proves the two equal). -/
def runFor : Nat → State → Host.Outcome State Fault Refusal
  | 0, s => .next s
  | k + 1, s =>
    match step s with
    | .next t => runFor k t
    | .fault r => .fault r
    | .refused r => .refused r

/-- Reachable from the start of a run. -/
def Reachable (t : State) : Prop := ∃ s k, StartState s ∧ runFor k s = .next t

/-- Every byte of both streams has been consumed (R331). -/
def StreamsConsumed (s : State) : Prop := s.rxStream = [] ∧ s.bulkStream = []

/-- Nothing the dispatcher owns differs (R28, R29, R30). -/
def SameDispatcherState (s t : State) : Prop :=
  t.pendingName = s.pendingName ∧ t.session = s.session ∧ t.lastNameBody = s.lastNameBody ∧
    t.lastNameBorder = s.lastNameBorder

/-- The six-byte frame with a one-byte payload: `A5 cc 01 r r 5A` (R94). -/
def shortFrame (cfg : Config) (code result : Byte) : List Byte :=
  [cfg.header, code, 0x01#8, result, result, cfg.footer]

/-- The `close` call that ends the session of a state, if it has one (R205, R212, R252). -/
def closeCalls (s : State) : List Call :=
  match s.session with
  | some active => [.close active.handle]
  | none => []

/-- The bytes a framer discards while Seeking, out of a sequence fed to it (R121, R134). -/
def discardedBytes : List Byte → State → Nat
  | [], _ => 0
  | b :: rest, s =>
    (if s.writeIndex = 0 ∧ b ≠ s.cfg.header then 1 else 0) + discardedBytes rest (feed b s).2

/-- The bytes a framer abandons, out of a sequence fed to it: three with each LengthTooLarge (R125), and
with each Overflow those stored and the one that did not fit (R122, R263, R134). -/
def abandonedBytes : List Byte → State → Nat
  | [], _ => 0
  | b :: rest, s =>
    (match (feed b s).1 with
      | .lengthTooLarge => 3
      | .overflow => s.writeIndex + 1
      | .none | .complete _ => 0) + abandonedBytes rest (feed b s).2

/-- The bytes of the candidate frame an event delivers (R126, R134). -/
def deliveredBytes : FrameEvent → Nat
  | .complete raw => raw.length
  | .none | .overflow | .lengthTooLarge => 0

/-- The diagnostic events of a FEED: those of its own name (R262). -/
def feedDiagnostics : FrameEvent → List Diagnostic
  | .overflow => [.overflow]
  | .lengthTooLarge => [.lengthTooLarge]
  | .none | .complete _ => []

/-- A code with no handler: none of the six of R173. -/
def Unhandled (cfg : Config) (code : Byte) : Prop := code ∉ cfg.handledCodes

end Sys2Proof.Machine
end

