-- ==== Sys2Proof/Certificates/Slice0/Obligations.lean ====
section
/-! DEFINITION. The statements for the provers, each a proposition about the model. A docstring names
the rules of spec/ the statement rests on. -/

open Sys2Proof Sys2Proof.Machine

/-! ### Frames: encoding, decoding, the checksum -/

/-- Decoding the frame of a well-formed request gives the request back (R90, R161, R173). -/
def Obligations.DecodeEncodeRequests : Prop :=
  ∀ (cfg : Config) (i : Instr), cfg.Legal → i.isRequest = true → i.wellFormed cfg = true →
    decode cfg (encode cfg i) = .ok i

/-- Each accepted byte sequence has one meaning: it is the frame of the request it decodes to, and a
sequence that fits the receive buffer decodes to a well-formed one (R80, R90, R156). -/
def Obligations.DecodedBytesAreTheRequestsFrame : Prop :=
  ∀ (cfg : Config) (raw : List Byte) (i : Instr), cfg.Legal → decode cfg raw = .ok i →
    encode cfg i = raw ∧ i.isRequest = true ∧
      (raw.length ≤ cfg.rxCapacity → i.wellFormed cfg = true)

/-- A peer that reads the frame of a sent form finds that form among its readings (R94, R236). -/
def Obligations.SentFormsAreReadBack : Prop :=
  ∀ (cfg : Config) (i : Instr), cfg.Legal → i.isRequest = false → i.wellFormed cfg = true →
    ∃ forms, decodeSent cfg (encode cfg i) = .ok forms ∧ i ∈ forms

/-- R161: VALIDATE undoes ENCODE for payloads of up to 255 bytes, and through the framer for payloads
that fit the receive buffer. -/
def Obligations.ValidateReadsBackEveryFrame : Prop :=
  ∀ (cfg : Config) (c : Byte) (p : List Byte), cfg.Legal →
    (p.length ≤ 255 → validate cfg (frame cfg c p) = .ok (c, p)) ∧
    (cfg.fitsRx p.length → ∀ s : State, s.cfg = cfg → s.seeking →
      (feedAll (frame cfg c p) s).1 =
        List.replicate (p.length + 4) .none ++ [.complete (frame cfg c p)] ∧
      validate cfg (frame cfg c p) = .ok (c, p))

/-- R230, R231: the bytes of a frame, one field after the other, and its size. -/
def Obligations.EncodedFrameLayout : Prop :=
  ∀ (cfg : Config) (c : Byte) (p : List Byte), cfg.Legal → cfg.fitsTx p.length →
    (frame cfg c p)[0]? = some cfg.header ∧ (frame cfg c p)[1]? = some c ∧
    (∃ n : Byte, (frame cfg c p)[2]? = some n ∧ n.toNat = p.length) ∧
    ((frame cfg c p).drop 3).take p.length = p ∧
    (frame cfg c p)[3 + p.length]? = some (sum8 p) ∧
    (frame cfg c p)[4 + p.length]? = some cfg.footer ∧
    (frame cfg c p).length = p.length + 5

/-- Words written out from the encodings of R90 and the opcode table decode to their instructions. -/
def Obligations.WrittenFramesDecode : Prop :=
  decode .standard [0xA5, 0x10, 0x04, 0x6C, 0x6F, 0x6F, 0x6D, 0xB7, 0x5A] =
      .ok (.netConnect [0x6C, 0x6F, 0x6F, 0x6D]) ∧
    decode .standard [0xA5, 0x14, 0x06, 0x01, 0x61, 0x2E, 0x62, 0x6D, 0x70, 0xCF, 0x5A] =
      .ok (.xferStart [0x01, 0x61, 0x2E, 0x62, 0x6D, 0x70]) ∧
    decode .standard [0xA5, 0x16, 0x01, 0x05, 0x05, 0x5A] = .ok (.paramA [0x05]) ∧
    decode .standard [0xA5, 0x20, 0x00, 0x00, 0x5A] = .ok (.unknown 0x20 []) ∧
    decode .standard [0xA5, 0x13, 0x00, 0x13, 0x5A] = .error (.checksumFailed 0x13)

/-- R106: the row that a frame's first two bytes select is the decoded request's, UNKNOWN only when
no other row matches; a first byte other than the header selects no row. -/
def Obligations.OpcodeRowsSelectTheRequest : Prop :=
  ∀ (b c : Byte) (p : List Byte),
    (b = 0xA5 → selectRow b c = some (instrOf .standard c p).mnemonic) ∧
    (b ≠ 0xA5 → selectRow b c = none)

/-- R156: the three checks of VALIDATE, in order, and what each answers. -/
def Obligations.ValidateMakesThreeChecksInOrder : Prop :=
  ∀ (cfg : Config) (raw : List Byte), cfg.Legal →
    let structured := 5 ≤ raw.length ∧ raw.head? = some cfg.header ∧ raw.getLast? = some cfg.footer
    (¬structured → validate cfg raw = .error .malformed) ∧
    (structured → ∃ c n : Byte, raw[1]? = some c ∧ raw[2]? = some n ∧
      (n.toNat ≠ raw.length - 5 → validate cfg raw = .error (.lengthMismatch c)) ∧
      (n.toNat = raw.length - 5 →
        (raw[3 + n.toNat]? ≠ some (sum8 ((raw.drop 3).take n.toNat)) →
          validate cfg raw = .error (.checksumFailed c)) ∧
        (raw[3 + n.toNat]? = some (sum8 ((raw.drop 3).take n.toNat)) →
          validate cfg raw = .ok (c, (raw.drop 3).take n.toNat))))

/-- The checksum does not see the order of the payload bytes (R87, R157), so a frame whose payload
bytes are reordered still passes VALIDATE (R158). -/
def Obligations.ChecksumIgnoresByteOrder : Prop :=
  ∀ (cfg : Config) (c : Byte) (p q : List Byte), cfg.Legal → p.length ≤ 255 → p.Perm q →
    sum8 p = sum8 q ∧
    validate cfg (cfg.header :: c :: BitVec.ofNat 8 p.length :: (q ++ [sum8 p, cfg.footer])) =
      .ok (c, q)

/-- R95: a join status byte equal to an error code, or to the success code, gives the bytes of that
form for NET_CONFIRM. -/
def Obligations.JoinStatusCanReadAsAnotherForm : Prop :=
  ∀ cfg : Config,
    encode cfg (.joinStatus cfg.rspLenMismatch) = encode cfg (.errLen cfg.cmdNetConfirm) ∧
    encode cfg (.joinStatus cfg.rspCksumFailed) = encode cfg (.errCksum cfg.cmdNetConfirm) ∧
    encode cfg (.joinStatus cfg.rspSuccess) = encode cfg (.success cfg.cmdNetConfirm)

/-! ### The framer -/

/-- R121: the Seeking branch of FEED. -/
def Obligations.SeekingDiscardsOrStartsAFrame : Prop :=
  ∀ (s : State) (b : Byte), s.writeIndex = 0 →
    (b ≠ s.cfg.header → feed b s = (.none, s)) ∧
    (b = s.cfg.header →
      feed b s = (.none,
        { s with rxBuf := s.rxBuf.write 0 b, writeIndex := 1, expectedLength := 0 }))

/-- R135: the transition table, exact on states that satisfy R25, and its Overflow row on every
state. -/
def Obligations.FeedFollowsTheTransitionTable : Prop :=
  ∀ (s : State) (b : Byte), s.cfg.Legal →
    let wi := s.writeIndex
    let el := s.expectedLength
    let goes := fun (r : FrameEvent × State) (wi' el' : Nat) (ev : FrameEvent) =>
      r.1 = ev ∧ r.2.writeIndex = wi' ∧ r.2.expectedLength = el'
    (s.cfg.rxCapacity ≤ wi → goes (feed b s) 0 0 .overflow) ∧
    (ReassemblyInv s →
      (wi = 0 → b ≠ s.cfg.header → goes (feed b s) 0 0 .none) ∧
      (wi = 0 → b = s.cfg.header → goes (feed b s) 1 0 .none) ∧
      (wi = 1 → goes (feed b s) 2 0 .none) ∧
      (wi = 2 → s.cfg.rxCapacity < b.toNat + 5 → goes (feed b s) 0 0 .lengthTooLarge) ∧
      (wi = 2 → b.toNat + 5 ≤ s.cfg.rxCapacity → goes (feed b s) 3 (b.toNat + 5) .none) ∧
      (3 ≤ wi → wi + 1 = el → goes (feed b s) 0 0 (.complete (s.rxBuf.slice wi ++ [b]))) ∧
      (3 ≤ wi → wi + 1 ≠ el → goes (feed b s) (wi + 1) el .none))

/-- What FEED changes, on every state: the receive buffer cell at `writeIndex`, which holds the byte, no
cell where the byte is discarded or refused (R121, R122), the reassembly registers, and the event of
its own answer, raised exactly once (R120, R123, R130, R262 to R264); everything else is left alone. -/
def Obligations.FeedFrame : Prop :=
  ∀ (s : State) (b : Byte),
    (∀ a, a ≠ s.writeIndex → (feed b s).2.rxBuf.read? a = s.rxBuf.read? a) ∧
    ((feed b s).1 = .overflow ∨ (s.writeIndex = 0 ∧ b ≠ s.cfg.header) →
      (feed b s).2.rxBuf = s.rxBuf) ∧
    ((feed b s).1 ≠ .overflow ∧ ¬(s.writeIndex = 0 ∧ b ≠ s.cfg.header) →
      (feed b s).2.rxBuf.read? s.writeIndex = some b) ∧
    ∃ wi el rx, (feed b s).2 =
      { s with rxBuf := rx, writeIndex := wi, expectedLength := el
               events := s.events ++ feedDiagnostics (feed b s).1 }

/-- R133: every completed frame, from a state that satisfies R25 (every reachable state does), starts
with the header, fits the buffer and has the length its third byte declares. -/
def Obligations.CompletedFramesHaveTheDeclaredShape : Prop :=
  ∀ (s : State) (b : Byte) (raw : List Byte), s.cfg.Legal → ReassemblyInv s →
    (feed b s).1 = .complete raw →
    raw[0]? = some s.cfg.header ∧ 5 ≤ raw.length ∧ raw.length ≤ s.cfg.rxCapacity ∧
      ∃ n : Byte, raw[2]? = some n ∧ raw.length = n.toNat + 5

/-- Behind the framer check (b) never fails and check (a) can fail only on the footer (R159). -/
def Obligations.LengthMismatchNeverBehindTheFramer : Prop :=
  ∀ (s : State) (b : Byte) (raw : List Byte), s.cfg.Legal → ReassemblyInv s →
    (feed b s).1 = .complete raw →
    (∀ c, validate s.cfg raw ≠ .error (.lengthMismatch c)) ∧
    (validate s.cfg raw = .error .malformed ↔ raw.getLast? ≠ some s.cfg.footer)

/-- R132: in every reachable state `writeIndex < RX_CAPACITY` and no byte makes FEED answer
Overflow. -/
def Obligations.OverflowIsUnreachable : Prop :=
  ∀ t : State, Reachable t →
    t.writeIndex < t.cfg.rxCapacity ∧ ∀ b : Byte, (feed b t).1 ≠ .overflow

/-- Garbage with no header byte in it leaves a Seeking framer as it was (R136). -/
def Obligations.HeaderFreeGarbageIsDiscarded : Prop :=
  ∀ (s : State) (bytes : List Byte), s.seeking → (∀ b ∈ bytes, b ≠ s.cfg.header) →
    feedAll bytes s = (List.replicate bytes.length .none, s)

/-- `RX_CAPACITY - 1` bytes, none of them the header, flush the framer from any state of R25: it ends
Seeking (R311). -/
def Obligations.HeaderFreeFlushEndsSeeking : Prop :=
  ∀ (s : State) (bytes : List Byte), s.cfg.Legal → ReassemblyInv s →
    bytes.length = s.cfg.rxCapacity - 1 → (∀ b ∈ bytes, b ≠ s.cfg.header) →
    (feedAll bytes s).2.seeking

/-- Byte accounting (R134), on every state: the bytes held before and the bytes fed are, exactly, those
discarded while Seeking, those abandoned with LengthTooLarge or Overflow, those of completed frames,
and those still held. From a state of R25 a completed frame has `raw[2] + 5` of them. -/
def Obligations.EveryReceivedByteIsAccountedFor : Prop :=
  ∀ (s : State) (bytes : List Byte),
    (s.writeIndex + bytes.length =
      discardedBytes bytes s + abandonedBytes bytes s +
        ((feedAll bytes s).1.map deliveredBytes).sum + (feedAll bytes s).2.writeIndex) ∧
    (s.cfg.Legal → ReassemblyInv s → ∀ raw, .complete raw ∈ (feedAll bytes s).1 →
      ∃ n : Byte, raw[2]? = some n ∧ raw.length = n.toNat + 5)

/-! ### The engine step -/

/-- ENGINE_STEP (R170), on every state and receive byte. A byte that completes a frame: the step is what
`runFrame` does with that frame, in the state where the byte is consumed and stored and reassembly is
reset (R59, R126); that is the decoded instruction's meaning, or, of a frame that fails VALIDATE, the
drop or the error form. Any other byte: the step is its FEED. -/
def Obligations.StepRunsTheDecodedInstruction : Prop :=
  ∀ (s : State) (b : Byte) (rest : List Byte),
    nextTurn s = .command → s.rxStream = b :: rest →
    let taken := { s with rxStream := rest, schedule := s.schedule.tail }
    let received := { taken with
      rxBuf := s.rxBuf.write s.writeIndex b, writeIndex := 0, expectedLength := 0 }
    (∀ raw, (feed b taken).1 = .complete raw →
      step s = runFrame raw received ∧
      (∀ i, decode s.cfg raw = .ok i → step s = exec i received) ∧
      (decode s.cfg raw = .error .malformed →
        step s = .next { received with events := received.events ++ [.malformed] }) ∧
      (∀ c, decode s.cfg raw = .error (.lengthMismatch c) → step s = exec (.errLen c) received) ∧
      (∀ c, decode s.cfg raw = .error (.checksumFailed c) → step s = exec (.errCksum c) received)) ∧
    ((∀ raw, (feed b taken).1 ≠ .complete raw) → step s = .next (feed b taken).2)

/-- Received byte by byte by a Seeking engine, the whole frame of a well-formed request is executed
exactly once, with the frame consumed and held in the receive buffer (R59, R161, R173). -/
def Obligations.ReceivingAFrameExecutesItsRequest : Prop :=
  ∀ (s : State) (i : Instr) (rest : List Byte), s.cfg.Legal → s.seeking → s.schedule = [] →
    i.isRequest = true → i.wellFormed s.cfg = true → s.rxStream = encode s.cfg i ++ rest →
    runFor (encode s.cfg i).length s =
      exec i { s with
        rxStream := rest, rxBuf := s.rxBuf.store 0 (encode s.cfg i), expectedLength := 0 }

/-- R171: a frame that fails VALIDATE runs no request and touches no dispatcher state; the engine goes
on. -/
def Obligations.RejectedFramesNeverReachDispatch : Prop :=
  ∀ (s : State) (raw : List Byte) (e : FrameError), s.cfg.Legal →
    validate s.cfg raw = .error e →
    (∀ i, instrOfFrame s.cfg raw = some i → i.isRequest = false) ∧
    ∃ t, runFrame raw s = .next t ∧ SameDispatcherState s t ∧ t.calls = s.calls

/-- What each failed check brings about: a malformed frame is dropped with an event and no response
(R265); a wrong length or checksum is answered with its code and the command byte received, whatever
that byte is (R266, R267). -/
def Obligations.FailedChecksAreAnswered : Prop :=
  ∀ (s : State) (raw : List Byte) (c : Byte), s.cfg.Legal →
    (validate s.cfg raw = .error .malformed →
      runFrame raw s = .next { s with events := s.events ++ [.malformed] }) ∧
    (validate s.cfg raw = .error (.lengthMismatch c) →
      raw[1]? = some c ∧ runFrame raw s = .next (State.txSend { s with events := s.events ++ [.lengthMismatch c] }
        (shortFrame s.cfg c s.cfg.rspLenMismatch))) ∧
    (validate s.cfg raw = .error (.checksumFailed c) →
      raw[1]? = some c ∧ runFrame raw s = .next (State.txSend { s with events := s.events ++ [.checksumFailed c] }
        (shortFrame s.cfg c s.cfg.rspCksumFailed)))

/-- R288: while no receive byte and no bulk byte is offered, whether none is left or it is not their turn,
the engine does nothing and holds all its state; a step at most drops a turn from the schedule, the
model's own record of the interleaving (logs 7 and 12). -/
def Obligations.IdleEngineHoldsItsState : Prop :=
  ∀ s : State,
    (s.rxStream = [] → s.bulkStream = [] → step s = .next { s with schedule := s.schedule.tail }) ∧
    (s.rxValid = false → s.bulkValid = false →
      step s = .next { s with schedule := s.schedule.tail })

/-! ### The commands: what each does, and all it does -/

/-- R192: NET_CONNECT replaces `pendingName` and answers SUCCESS; nothing else happens. -/
def Obligations.NetConnectStoresTheName : Prop :=
  ∀ (s : State) (name : List Byte), s.cfg.Legal →
    encode s.cfg (.netConnect name) = frame s.cfg s.cfg.cmdNetConnect name ∧
    exec (.netConnect name) s = .next (State.txSend { s with pendingName := name }
      (shortFrame s.cfg s.cfg.cmdNetConnect s.cfg.rspSuccess))

/-- R195: NET_PASSWORD starts a join with `pendingName` and the password and answers SUCCESS; the
password is stored nowhere in the engine. -/
def Obligations.NetPasswordStartsAJoin : Prop :=
  ∀ (s : State) (password : List Byte), s.cfg.Legal →
    encode s.cfg (.netPassword password) = frame s.cfg s.cfg.cmdNetPassword password ∧
    exec (.netPassword password) s =
      .next (State.txSend { s with calls := s.calls ++ [.initiateJoin s.pendingName password] }
        (shortFrame s.cfg s.cfg.cmdNetPassword s.cfg.rspSuccess))

/-- R198: NET_CONFIRM sends the join status byte verbatim, whatever it is and whatever the payload. How
an answer is drawn and the call recorded is the model's choice: logs 8 and 9. -/
def Obligations.NetConfirmPassesTheStatusThrough : Prop :=
  ∀ (s : State) (ignored : List Byte), s.cfg.Legal →
    encode s.cfg (.netConfirm []) =
      [s.cfg.header, s.cfg.cmdNetConfirm, 0x00, 0x00, s.cfg.footer] ∧
    exec (.netConfirm ignored) s =
      .next (State.txSend { s with
          joinAnswers := s.joinAnswers.tail, draws := s.draws + 1
          calls := s.calls ++ [.queryJoinStatus s.nextJoin] }
        (shortFrame s.cfg s.cfg.cmdNetConfirm s.nextJoin))

/-- The count of a category (R102, R200): 0 with no call for the empty name, else the storage
collaborator's answer, whatever it is. How an answer is drawn is the model's choice: log 8. -/
def Obligations.CountIsZeroOrTheAnswer : Prop :=
  ∀ (s : State) (k : Category),
    (s.lastName k = emptyName s.cfg → total k s = (0, s)) ∧
    (s.lastName k ≠ emptyName s.cfg →
      total k s = (s.nextCount, { s with
        countAnswers := s.countAnswers.tail, draws := s.draws + 1
        calls := s.calls ++ [.unitCount k (s.lastName k) s.nextCount] }))

/-- FILE_STATUS sends the first STATUS_LEN bytes of the record, body before border, whatever the
payload; it changes nothing but what its `unitCount` calls draw and record (R200, R201). -/
def Obligations.FileStatusSendsTheRecord : Prop :=
  ∀ (s : State) (ignored : List Byte), s.cfg.Legal → ShapeInv s →
    let body := total .body s
    let border := total .border body.2
    let record := le32 body.1 ++ [0, 0, 0, 0] ++ s.lastNameBody ++
      (le32 border.1 ++ [0, 0, 0, 0] ++ s.lastNameBorder)
    exec (.fileStatus ignored) s = .next (border.2.txSend
      (frame s.cfg s.cfg.cmdFileStatus (record.take s.cfg.statusLen))) ∧
    SameDispatcherState s border.2

/-- With no prior transfer FILE_STATUS makes no call and sends a record of zeros (R200). -/
def Obligations.FileStatusWithNoTransferIsZeros : Prop :=
  ∀ (s : State) (ignored : List Byte), s.cfg.Legal →
    s.lastNameBody = emptyName s.cfg → s.lastNameBorder = emptyName s.cfg →
    exec (.fileStatus ignored) s = .next (s.txSend
      ([s.cfg.header, s.cfg.cmdFileStatus, BitVec.ofNat 8 s.cfg.statusLen] ++
        List.replicate s.cfg.statusLen 0 ++ [0, s.cfg.footer]))

/-- R204 to R207, the successful open: a session already active is closed first, the name is opened as
received, the session and the last-known name of its category are set, and SUCCESS is answered. How
an answer is drawn is the model's choice: log 8. -/
def Obligations.XferStartOpensATransfer : Prop :=
  ∀ (s : State) (x : Byte) (name : List Byte) (k : Category) (h : Handle), s.cfg.Legal →
    catOf s.cfg x = some k → s.nextOpen = some h →
    exec (.xferStart (x :: name)) s = .next (State.txSend { s with
        openAnswers := s.openAnswers.tail, draws := s.draws + 1
        calls := s.calls ++ closeCalls s ++ [.openWritable name (some h)]
        session := some ⟨k, name, h⟩
        lastNameBody := if k = .body then fieldOf s.cfg name else s.lastNameBody
        lastNameBorder := if k = .border then fieldOf s.cfg name else s.lastNameBorder }
      (shortFrame s.cfg s.cfg.cmdXferStart s.cfg.rspSuccess))

/-- R208, the failed open: no response, no session, one event; the last-known name is updated only
where the parameter says so, and by default it says no. How an answer is drawn is the model's choice:
log 8. -/
def Obligations.XferStartFailedOpenIsSilent : Prop :=
  Config.standard.updateNameOnOpenFailure = false ∧
  ∀ (s : State) (x : Byte) (name : List Byte) (k : Category),
    catOf s.cfg x = some k → s.nextOpen = none →
    exec (.xferStart (x :: name)) s = .next { s with
      openAnswers := s.openAnswers.tail, draws := s.draws + 1
      calls := s.calls ++ closeCalls s ++ [.openWritable name none]
      session := none
      lastNameBody := if s.cfg.updateNameOnOpenFailure ∧ k = .body then fieldOf s.cfg name
        else s.lastNameBody
      lastNameBorder := if s.cfg.updateNameOnOpenFailure ∧ k = .border then fieldOf s.cfg name
        else s.lastNameBorder
      events := s.events ++ [.storageOpenFailure s.cfg.cmdXferStart] }

/-- With no category byte or an unknown one, the policy decides: the hardware's does nothing but raise
the event, the other gives the frame no meaning (R209). Which policy a configuration has is the
model's parameter: log 5. -/
def Obligations.XferStartUndefinedPayloadFollowsThePolicy : Prop :=
  ∀ (s : State) (payload : List Byte),
    (payload = [] ∨ ∃ x name, payload = x :: name ∧ catOf s.cfg x = none) →
    (s.cfg.startBadPayload = .hardware → exec (.xferStart payload) s =
      .next { s with events := s.events ++ [.storageOpenFailure s.cfg.cmdXferStart] }) ∧
    (s.cfg.startBadPayload = .refuse →
      exec (.xferStart payload) s = .refused .startPayloadUndefined)

/-- R212: XFER_END closes and clears the session if there is one and answers SUCCESS in any case. -/
def Obligations.XferEndClosesTheSession : Prop :=
  ∀ (s : State) (ignored : List Byte), s.cfg.Legal →
    encode s.cfg (.xferEnd []) = [s.cfg.header, s.cfg.cmdXferEnd, 0x00, 0x00, s.cfg.footer] ∧
    exec (.xferEnd ignored) s =
      .next (State.txSend { s with session := none, calls := s.calls ++ closeCalls s }
        (shortFrame s.cfg s.cfg.cmdXferEnd s.cfg.rspSuccess))

/-- R174, R215, R216: PARAM_A, PARAM_B and every other code with no handler change no state, call
nobody and send nothing; they raise the event UnknownCommand with their code. -/
def Obligations.UnhandledCommandsOnlyRaiseAnEvent : Prop :=
  ∀ (s : State) (payload : List Byte) (c : Byte),
    encode s.cfg (.paramA payload) = frame s.cfg s.cfg.cmdParamA payload ∧
    encode s.cfg (.paramB payload) = frame s.cfg s.cfg.cmdParamB payload ∧
    exec (.paramA payload) s =
      .next { s with events := s.events ++ [.unknownCommand s.cfg.cmdParamA] } ∧
    exec (.paramB payload) s =
      .next { s with events := s.events ++ [.unknownCommand s.cfg.cmdParamB] } ∧
    exec (.unknown c payload) s =
      .next { s with events := s.events ++ [.unknownCommand c] } ∧
    (Unhandled s.cfg c → exec (instrOf s.cfg c payload) s =
      .next { s with events := s.events ++ [.unknownCommand c] })

/-- The sent forms with a one-byte payload go out as their six bytes, the two error forms with their
event (R94, R170). That a sent form is an instruction of its own is the model's choice: log 1. -/
def Obligations.ShortSentFormsAreSent : Prop :=
  ∀ (s : State) (c r : Byte), s.cfg.Legal →
    exec (.success c) s = .next (s.txSend (shortFrame s.cfg c s.cfg.rspSuccess)) ∧
    exec (.errLen c) s = .next (State.txSend { s with events := s.events ++ [.lengthMismatch c] }
      (shortFrame s.cfg c s.cfg.rspLenMismatch)) ∧
    exec (.errCksum c) s = .next (State.txSend { s with events := s.events ++ [.checksumFailed c] }
      (shortFrame s.cfg c s.cfg.rspCksumFailed)) ∧
    exec (.joinStatus r) s = .next (s.txSend (shortFrame s.cfg s.cfg.cmdNetConfirm r))

/-- A status record goes out as its frame; a payload over the transmit bound faults and nothing is
sent (R94, R233). That a sent form is an instruction of its own is the model's choice: log 1. -/
def Obligations.StatusReplyIsSentWithinTheBound : Prop :=
  ∀ (s : State) (record : List Byte), s.cfg.Legal →
    (record.length + 5 ≤ s.cfg.txCapacity → exec (.fileStatusReply record) s =
      .next (s.txSend (frame s.cfg s.cfg.cmdFileStatus record))) ∧
    (s.cfg.txCapacity < record.length + 5 →
      exec (.fileStatusReply record) s = .fault (.replyTooLong record.length))

/-- What no instruction touches: the configuration, the framer, the streams, the schedule (R190,
R332), whatever the instruction and the state. -/
def Obligations.InstructionsLeaveTheFramerAlone : Prop :=
  ∀ (i : Instr) (s t : State), exec i s = .next t →
    t.cfg = s.cfg ∧ t.rxBuf = s.rxBuf ∧ t.writeIndex = s.writeIndex ∧
    t.expectedLength = s.expectedLength ∧ t.rxStream = s.rxStream ∧
    t.bulkStream = s.bulkStream ∧ t.schedule = s.schedule

/-- The transmit buffer: an instruction either sends nothing and leaves every cell as it was, or sends
one frame, whose bytes the cells from 0 then hold, every other cell as it was (R32, R56). That every
frame is staged from cell 0 is the model's choice: log 11. -/
def Obligations.SendingStagesExactlyTheFrame : Prop :=
  ∀ (i : Instr) (s t : State), exec i s = .next t →
    (t.transmitted = s.transmitted ∧ ∀ a, t.txBuf.read? a = s.txBuf.read? a) ∨
    (∃ f, t.transmitted = s.transmitted ++ [f] ∧
      (∀ a, a < f.length → t.txBuf.read? a = f[a]?) ∧
      (∀ a, f.length ≤ a → t.txBuf.read? a = s.txBuf.read? a))

/-! ### The bulk channel -/

/-- R251: a WRITECHUNK, scheduled or in port order, consumes its bytes, writes them to the open handle if
there is one, and changes no engine state; an empty chunk is nothing. The chunk's size is the
schedule's, one byte in port order: log 7. -/
def Obligations.WriteChunkGoesToTheOpenHandle : Prop :=
  (∀ (s : State) (n : Nat), nextTurn s = .bulk n →
    (s.bulkStream.take n = [] → step s = .next { s with schedule := s.schedule.tail }) ∧
    (s.bulkStream.take n ≠ [] → s.session = none →
      step s = .next { s with schedule := s.schedule.tail, bulkStream := s.bulkStream.drop n }) ∧
    (∀ active, s.bulkStream.take n ≠ [] → s.session = some active →
      step s = .next { s with
        schedule := s.schedule.tail, bulkStream := s.bulkStream.drop n
        calls := s.calls ++ [.write active.handle (s.bulkStream.take n)] })) ∧
  (∀ s : State, s.schedule = [] → s.rxStream = [] → nextTurn s = .bulk 1)

/-- R252: FINALIZE closes and clears the session if there is one and does nothing else; repeated, it does
nothing. XFER_END makes that state change, and its response is all it adds. -/
def Obligations.FinalizeClosesTheSession : Prop :=
  ∀ s : State,
    finalize s = { s with session := none, calls := s.calls ++ closeCalls s } ∧
    finalize (finalize s) = finalize s ∧
    (s.cfg.Legal → ∀ ignored, exec (.xferEnd ignored) s = .next ((finalize s).txSend
      (shortFrame s.cfg s.cfg.cmdXferEnd s.cfg.rspSuccess)))

/-! ### The whole machine -/

/-- The invariant holds at the start of every run, and at reset (R25, R31, R300). -/
def Obligations.StartStatesHaveTheInvariant : Prop :=
  (∀ s : State, StartState s → EngineInv s) ∧ EngineInv State.reset

/-- Every step keeps the invariant: a legal configuration, R25, the buffers' canonical form, the
shapes of R28 to R30, handle ownership (R31), and only the five forms sent (R94). -/
def Obligations.EveryStepKeepsTheInvariant : Prop :=
  ∀ s t : State, EngineInv s → step s = .next t → EngineInv t

/-- No ordinary data ends a run: from a state with the invariant every step answers a next state, but
for one that executes an XFER_START with an undefined payload under the policy that refuses it; no
step faults (R233, R330). -/
def Obligations.EveryStepCompletes : Prop :=
  ∀ s : State, EngineInv s →
    (∃ t, step s = .next t) ∨
    (s.cfg.startBadPayload = .refuse ∧
      (∃ p, nextInstr s = some (.xferStart p) ∧ startOperands s.cfg p = none) ∧
      step s = .refused .startPayloadUndefined)

/-- A run ends: served in port order (log 7), the engine consumes both streams in as many steps as they
have bytes (R42, R331). -/
def Obligations.RunsConsumeBothStreams : Prop :=
  ∀ s : State, EngineInv s → s.cfg.startBadPayload = .hardware → s.schedule = [] →
    ∃ t, runFor (s.rxStream.length + s.bulkStream.length) s = .next t ∧
      StreamsConsumed t

/-- Each element of the dispatcher's state has the writers R28, R29 and R30 give it and no other:
`pendingName` NET_CONNECT, the names XFER_START, the session XFER_START and XFER_END, whose FINALIZE
leaves none: a session stays until one of them (R253). -/
def Obligations.DispatcherStateHasOnlyItsWriters : Prop :=
  ∀ s t : State, step s = .next t →
    (t.pendingName ≠ s.pendingName → ∃ p, nextInstr s = some (.netConnect p) ∧ t.pendingName = p) ∧
    (t.lastNameBody ≠ s.lastNameBody ∨ t.lastNameBorder ≠ s.lastNameBorder →
      ∃ p, nextInstr s = some (.xferStart p)) ∧
    (t.session ≠ s.session →
      (∃ p, nextInstr s = some (.xferStart p)) ∨
      ((∃ p, nextInstr s = some (.xferEnd p)) ∧ t.session = none))

/-- A step sends at most one frame, only as the answer to a completed frame, and the answer echoes
that frame's command byte and is one of the five forms (R92, R94, R177). -/
def Obligations.OneAnswerEchoingTheCommand : Prop :=
  ∀ s t : State, EngineInv s → step s = .next t →
    t.transmitted = s.transmitted ∨
    ∃ i g, nextInstr s = some i ∧ g.isRequest = false ∧ g.wellFormed s.cfg = true ∧
      t.transmitted = s.transmitted ++ [encode s.cfg g] ∧ g.code s.cfg = i.code s.cfg

/-- A step meets at most one condition that has an event (R262, R271), and the configuration never
changes (R332). -/
def Obligations.AtMostOneEventAStep : Prop :=
  ∀ s t : State, step s = .next t →
    t.cfg = s.cfg ∧ (t.events = s.events ∨ ∃ e, t.events = s.events ++ [e])

/-- Bit `k` of the handler select is 1 exactly when the next step's byte completes a frame that passes
VALIDATE and whose command byte has handler `k`; so at most one bit is (R43, R177). -/
def Obligations.HandlerSelectIsOneHot : Prop :=
  ∀ s : State,
    (∀ k : Fin 6, s.handlerSelect.getLsbD k.val = true ↔
      ∃ b rest raw c p, nextTurn s = .command ∧ s.rxStream = b :: rest ∧
        (feed b { s with rxStream := rest, schedule := s.schedule.tail }).1 = .complete raw ∧
        validate s.cfg raw = .ok (c, p) ∧ handlerPort s.cfg c = some k) ∧
    (∀ j k : Nat, s.handlerSelect.getLsbD j = true → s.handlerSelect.getLsbD k = true → j = k)

/-! ### Layouts, operands, reset -/

/-- R101: a name field is the first 15 bytes of the name, padded with zeros to 16. -/
def Obligations.NameFieldLayout : Prop :=
  ∀ (cfg : Config) (name : List Byte), cfg.Legal →
    (fieldOf cfg name).length = 16 ∧
    (fieldOf cfg name).take (min name.length 15) = name.take 15 ∧
    (∀ a, min name.length 15 ≤ a → a < 16 → (fieldOf cfg name)[a]? = some 0)

/-- R100: where each field of the status record lies. -/
def Obligations.StatusRecordLayout : Prop :=
  ∀ (bodyTotal borderTotal : Count) (bodyName borderName : List Byte),
    bodyName.length = 16 → borderName.length = 16 →
    let r := statusRecord bodyTotal borderTotal bodyName borderName
    r.length = 48 ∧ r.take 4 = le32 bodyTotal ∧ (r.drop 4).take 4 = [0, 0, 0, 0] ∧
    (r.drop 8).take 16 = bodyName ∧ (r.drop 24).take 4 = le32 borderTotal ∧
    (r.drop 28).take 4 = [0, 0, 0, 0] ∧ (r.drop 32).take 16 = borderName ∧
    ((r.take 44).drop 32) = borderName.take 12

/-- R14: `le32` is the four bytes of a count, least significant first; they lose nothing. -/
def Obligations.LittleEndianCountReadsBack : Prop :=
  ∀ v : Count, ∃ b0 b1 b2 b3 : Byte, le32 v = [b0, b1, b2, b3] ∧
    b0 = v.extractLsb' 0 8 ∧ b1 = v.extractLsb' 8 8 ∧ b2 = v.extractLsb' 16 8 ∧
    b3 = v.extractLsb' 24 8 ∧
    v.toNat = b0.toNat + 256 * b1.toNat + 65536 * b2.toNat + 16777216 * b3.toNat

/-- `catOf` of R191, under a legal configuration. -/
def Obligations.CategoryByteSelectsTheCategory : Prop :=
  ∀ (cfg : Config) (x : Byte), cfg.Legal →
    catOf cfg cfg.catBody = some .body ∧ catOf cfg cfg.catBorder = some .border ∧
    (x ≠ cfg.catBody → x ≠ cfg.catBorder → catOf cfg x = none)

/-- R300: the reset value of every element for which it gives one (it gives none for the cells of the two
buffers); nothing has been sent, called or raised, and no handler is selected. -/
def Obligations.ResetValues : Prop :=
  State.reset.writeIndex = 0 ∧ State.reset.expectedLength = 0 ∧ State.reset.pendingName = [] ∧
  State.reset.session = none ∧ State.reset.lastNameBody = List.replicate 16 0 ∧
  State.reset.lastNameBorder = List.replicate 16 0 ∧ State.reset.transmitted = [] ∧
  State.reset.calls = [] ∧ State.reset.events = [] ∧ State.reset.handlerSelect = 0

/-- `TxSend` at the port: the frame's bytes in order, `tx_last` on the final byte only (R41). -/
def Obligations.LastTransferIsMarked : Prop :=
  ∀ f : List Byte, (txTransfers f).map Prod.fst = f ∧
    ∀ a, a < f.length → ((txTransfers f)[a]?).map Prod.snd = some (decide (a + 1 = f.length))

/-- R180, under the default configuration: the assigned codes are the bytes with `c[7:3] = 0b00010`,
`c[2:0]` numbers them, and its values 0 to 5 are the handler ports. -/
def Obligations.HandlerPortIsTheLowThreeBits : Prop :=
  ∀ c : Byte,
    (c ∈ Config.standard.commandCodes ↔ c.extractLsb' 3 5 = 0b00010#5) ∧
    (∀ k : Fin 8, Config.standard.commandCodes[k.val]? = some c ↔
      c.extractLsb' 3 5 = 0b00010#5 ∧ (c.extractLsb' 0 3).toNat = k.val) ∧
    (∀ k : Fin 6, handlerPort .standard c = some k ↔
      c.extractLsb' 3 5 = 0b00010#5 ∧ (c.extractLsb' 0 3).toNat = k.val)

/-! ### The ports -/

/-- The receive and bulk ports (R40, R42), read under every interleaving as log 12 says: the step takes a
receive byte exactly where one is offered, and bulk bytes exactly where one is offered and
`bulk_ready` is 1, which it never is beside an offered receive byte. -/
def Obligations.PortsTransferWhatTheStepTakes : Prop :=
  ∀ s t : State, step s = .next t →
    (s.rxValid = true ∧ s.rxReady = true → t.rxStream = s.rxStream.tail ∧ s.rxStream ≠ []) ∧
    (¬(s.rxValid = true ∧ s.rxReady = true) → t.rxStream = s.rxStream) ∧
    (s.bulkValid = true ∧ s.bulkReady = true → t.bulkStream.length < s.bulkStream.length) ∧
    (¬(s.bulkValid = true ∧ s.bulkReady = true) → t.bulkStream = s.bulkStream) ∧
    (s.rxValid = true → s.bulkReady = false)

/-- The diagnostic event port (R45): after a step it shows the event the step raised, each on a signal of
its own and the last four with the command byte, and no signal where the step raised none. -/
def Obligations.EventPortShowsTheEvent : Prop :=
  (∀ s t : State, step s = .next t →
    (t.events = s.events → eventPort s t = EventPort.idle) ∧
    ∀ e, t.events = s.events ++ [e] → eventPort s t = e.port) ∧
  EventPort.idle.signals = 0 ∧
  ∀ (e : Diagnostic) (k : Fin 7), e.port.signals.getLsbD k.val = true ↔
    match e with
    | .overflow => k = 0 ∧ e.port.cmd = none
    | .lengthTooLarge => k = 1 ∧ e.port.cmd = none
    | .malformed => k = 2 ∧ e.port.cmd = none
    | .lengthMismatch c => k = 3 ∧ e.port.cmd = some c
    | .checksumFailed c => k = 4 ∧ e.port.cmd = some c
    | .unknownCommand c => k = 5 ∧ e.port.cmd = some c
    | .storageOpenFailure c => k = 6 ∧ e.port.cmd = some c
end

