-- ==== Sys2Proof/Laws/Config.lean ====
section
/-! SUPPORT. The default configuration is legal, and what legality gives. -/

namespace Sys2Proof

theorem standard_legal : Config.standard.Legal := by constructor <;> decide

/-- A payload that fits a sent frame has a length that fits a byte (R231). -/
theorem Config.Legal.fitsTx_byte {cfg : Config} (legal : cfg.Legal) {n : Nat} (h : cfg.fitsTx n) :
    n ≤ 255 := by
  have h1 := legal.overhead
  have h2 := legal.txUpper
  unfold Config.fitsTx at h
  omega

/-- A payload that fits a received frame has a length that fits a byte (R85). -/
theorem Config.Legal.fitsRx_byte {cfg : Config} (legal : cfg.Legal) {n : Nat} (h : cfg.fitsRx n) :
    n ≤ 255 := by
  have h1 := legal.overhead
  have h2 := legal.rxUpper
  unfold Config.fitsRx at h
  omega

end Sys2Proof
end

