-- ==== Sys2Proof/Laws/Frame.lean ====
section
/-! SUPPORT. The checksum, the parts of a frame, and what VALIDATE needs to accept. -/

namespace Sys2Proof

@[simp] theorem sum8_nil : sum8 [] = 0#8 := rfl

theorem sum8_cons (b : Byte) (rest : List Byte) : sum8 (b :: rest) = b + sum8 rest := by
  simp [sum8, BitVec.ofNat_add]

@[simp] theorem sum8_singleton (b : Byte) : sum8 [b] = b := by simp [sum8]

@[simp] theorem length_frame (cfg : Config) (c : Byte) (p : List Byte) :
    (frame cfg c p).length = p.length + 5 := by simp [frame]

theorem frame_singleton (cfg : Config) (c r : Byte) :
    frame cfg c [r] = [cfg.header, c, 0x01#8, r, r, cfg.footer] := by simp [frame]

@[simp] theorem length_encode (cfg : Config) (i : Instr) :
    (encode cfg i).length = (i.payload cfg).length + 5 := by simp [encode]

/-- A payload length that fits a byte is read back from the length byte. -/
theorem toNat_length_byte (p : List Byte) (h : p.length ≤ 255) :
    (BitVec.ofNat 8 p.length).toNat = p.length := by
  rw [BitVec.toNat_ofNat]; exact Nat.mod_eq_of_lt (by omega)

@[simp] theorem getLast?_frame (cfg : Config) (c : Byte) (p : List Byte) :
    (frame cfg c p).getLast? = some cfg.footer := by simp [frame, List.getLast?_cons]

/-- What VALIDATE accepts: exactly the frames whose length byte is right (R156). -/
theorem validate_ok (cfg : Config) (legal : cfg.overhead = 5) (raw : List Byte) (c : Byte)
    (p : List Byte) (h : validate cfg raw = .ok (c, p)) :
    p.length ≤ 255 ∧ raw = frame cfg c p := by
  unfold validate at h
  match raw with
  | [] | [_] | [_, _] => simp at h
  | first :: code :: declared :: rest =>
    simp only [legal] at h
    split at h
    · cases h
    split at h
    · cases h
    split at h
    · cases h
    rename_i h1 h2 h3
    simp only [Except.ok.injEq, Prod.mk.injEq] at h
    obtain ⟨rfl, rfl⟩ := h
    simp only [List.length_cons, not_or, ne_eq, not_not, not_lt] at h1 h2 h3
    obtain ⟨hlen, rfl, hlast⟩ := h1
    have hd := declared.isLt
    have hr : rest.length = declared.toNat + 2 := by omega
    have ht : (rest.take declared.toNat).length = declared.toNat := by simp; omega
    refine ⟨by omega, ?_⟩
    unfold frame
    rw [ht, BitVec.ofNat_toNat, BitVec.setWidth_eq]
    congr 3
    have hlast' : rest[declared.toNat + 1]? = some cfg.footer := by
      have hne : rest ≠ [] := by rintro rfl; simp at hr
      rw [List.getLast?_cons_cons, List.getLast?_cons_cons, List.getLast?_cons,
        List.getLast?_eq_getElem?] at hlast
      have : rest.length - 1 = declared.toNat + 1 := by omega
      rw [this] at hlast
      have hlt : declared.toNat + 1 < rest.length := by omega
      rw [List.getElem?_eq_getElem hlt] at hlast ⊢
      simpa using hlast
    refine List.ext_getElem? fun a => ?_
    rcases Nat.lt_trichotomy a declared.toNat with ha | rfl | ha
    · rw [List.getElem?_append_left (by omega), List.getElem?_take, if_pos ha]
    · rw [List.getElem?_append_right (by omega), ht, h3]; simp
    · by_cases ha' : a = declared.toNat + 1
      · subst ha'
        rw [List.getElem?_append_right (by omega), ht, hlast']
        simp
      · rw [List.getElem?_eq_none (by omega), List.getElem?_eq_none (by simp; omega)]

theorem isRequest_instrOf (cfg : Config) (c : Byte) (p : List Byte) :
    (instrOf cfg c p).isRequest = true := by
  unfold instrOf
  repeat' split
  all_goals rfl

@[simp] theorem payload_instrOf (cfg : Config) (c : Byte) (p : List Byte) :
    (instrOf cfg c p).payload cfg = p := by
  unfold instrOf
  repeat' split
  all_goals rfl

@[simp] theorem code_instrOf (cfg : Config) (c : Byte) (p : List Byte) :
    (instrOf cfg c p).code cfg = c := by
  unfold instrOf
  repeat' split
  all_goals simp_all [Instr.code]

end Sys2Proof
end

