-- ==== Sys2Proof/Laws/Memory.lean ====
section
/-! SUPPORT. Buffer cells: a read after a write, and the canonical form, which every write keeps. -/

namespace Sys2Proof.Machine

theorem read?_write (m : Memory) (a : Nat) (b : Byte) (x : Nat) :
    (m.write a b).read? x = if x = a then some b else m.read? x := by
  induction m with
  | nil => simp [Memory.write, Memory.read?]
  | cons head rest ih =>
    obtain ⟨k, v⟩ := head
    unfold Memory.write
    split
    · simp only [Memory.read?]
    · split
      · subst_vars
        simp only [Memory.read?]
        split <;> rfl
      · simp only [Memory.read?, ih]
        grind

@[simp] theorem read?_write_same (m : Memory) (a : Nat) (b : Byte) :
    (m.write a b).read? a = some b := by simp [read?_write]

theorem read?_write_other (m : Memory) (a x : Nat) (b : Byte) (h : x ≠ a) :
    (m.write a b).read? x = m.read? x := by simp [read?_write, h]

theorem cell_write (m : Memory) (a : Nat) (b : Byte) (x : Nat) :
    (m.write a b).cell x = if x = a then b else m.cell x := by
  unfold Memory.cell
  rw [read?_write]
  split <;> rfl

theorem read?_store (bytes : List Byte) : ∀ (m : Memory) (a x : Nat),
    (m.store a bytes).read? x =
      if a ≤ x ∧ x < a + bytes.length then bytes[x - a]? else m.read? x := by
  induction bytes with
  | nil => intro m a x; simp [Memory.store]
  | cons b rest ih =>
    intro m a x
    simp only [Memory.store, ih, read?_write, List.length_cons]
    by_cases hx : x = a
    · subst hx; simp
    · by_cases hle : a + 1 ≤ x
      · obtain ⟨d, rfl⟩ : ∃ d, x = a + 1 + d := ⟨x - (a + 1), by omega⟩
        have e1 : a + 1 + d - (a + 1) = d := by omega
        have e2 : a + 1 + d - a = d + 1 := by omega
        simp only [e1, e2, List.getElem?_cons_succ, hx, if_false]
        congr 1
        simp; omega
      · rw [if_neg (by omega), if_neg hx, if_neg (by omega)]

theorem store_append (xs ys : List Byte) : ∀ (m : Memory) (a : Nat),
    m.store a (xs ++ ys) = (m.store a xs).store (a + xs.length) ys := by
  induction xs with
  | nil => intro m a; simp [Memory.store]
  | cons x xs ih => intro m a; simp [Memory.store, ih]; congr 1; omega

/-! ### The canonical form -/

theorem mem_write (m : Memory) (a : Nat) (b : Byte) (x : Host.Cell) (h : x ∈ m.write a b) :
    x = (a, b) ∨ x ∈ m := by
  induction m with
  | nil => simp [Memory.write] at h; exact .inl h
  | cons head rest ih =>
    obtain ⟨k, v⟩ := head
    unfold Memory.write at h
    split at h
    · simpa using h
    · split at h
      · rcases List.mem_cons.mp h with h | h
        · exact .inl h
        · exact .inr (List.mem_cons_of_mem _ h)
      · rcases List.mem_cons.mp h with h | h
        · exact .inr (h ▸ List.mem_cons_self)
        · rcases ih h with h | h
          · exact .inl h
          · exact .inr (List.mem_cons_of_mem _ h)

theorem rising_write (m : Memory) (a : Nat) (b : Byte)
    (h : (m.map Prod.fst).Pairwise (· < ·)) :
    ((m.write a b).map Prod.fst).Pairwise (· < ·) := by
  induction m with
  | nil => simp [Memory.write]
  | cons head rest ih =>
    obtain ⟨k, v⟩ := head
    simp only [List.map_cons, List.pairwise_cons] at h
    unfold Memory.write
    split
    · rename_i hlt
      simp only [List.map_cons, List.pairwise_cons]
      refine ⟨fun y hy => ?_, h⟩
      rcases List.mem_cons.mp hy with rfl | hy
      · exact hlt
      · exact Nat.lt_trans hlt (h.1 y hy)
    · split
      · subst_vars
        simpa only [List.map_cons, List.pairwise_cons] using h
      · simp only [List.map_cons, List.pairwise_cons]
        refine ⟨fun y hy => ?_, ih h.2⟩
        obtain ⟨x, hx, rfl⟩ := List.mem_map.mp hy
        rcases mem_write _ _ _ _ hx with rfl | hx
        · show k < a; omega
        · exact h.1 _ (List.mem_map.mpr ⟨x, hx, rfl⟩)

/-- Writing a cell below the capacity keeps the canonical form. -/
theorem wf_write (capacity : Nat) (m : Memory) (a : Nat) (b : Byte) (h : m.wf capacity)
    (ha : a < capacity) : (m.write a b).wf capacity := by
  refine ⟨rising_write m a b h.1, fun x hx => ?_⟩
  rcases mem_write _ _ _ _ hx with rfl | hx
  · exact ha
  · exact h.2 x hx

/-- Staging bytes that end below the capacity keeps the canonical form. -/
theorem wf_store (capacity : Nat) (bytes : List Byte) : ∀ (m : Memory) (a : Nat), m.wf capacity →
    a + bytes.length ≤ capacity → (m.store a bytes).wf capacity := by
  induction bytes with
  | nil => intro m a h _; exact h
  | cons b rest ih =>
    intro m a h hle
    simp only [List.length_cons] at hle
    exact ih _ _ (wf_write capacity m a b h (by omega)) (by omega)

theorem wf_empty (capacity : Nat) : Memory.wf capacity [] := ⟨List.Pairwise.nil, by simp⟩

/-- The buffers of the reset state are in canonical form. -/
theorem reset_buffers_wf :
    State.reset.rxBuf.wf State.reset.cfg.rxCapacity ∧
      State.reset.txBuf.wf State.reset.cfg.txCapacity := ⟨wf_empty _, wf_empty _⟩

/-! ### Slices -/

@[simp] theorem length_slice (m : Memory) (n : Nat) : (m.slice n).length = n := by
  simp [Memory.slice]

theorem slice_get? (m : Memory) (n a : Nat) (h : a < n) : (m.slice n)[a]? = some (m.cell a) := by
  simp [Memory.slice, h]

theorem slice_succ (m : Memory) (n : Nat) : m.slice (n + 1) = m.slice n ++ [m.cell n] := by
  simp [Memory.slice, List.range_succ]

/-- A write at the end of a slice appends to it. -/
theorem slice_write_end (m : Memory) (n : Nat) (b : Byte) :
    (m.write n b).slice (n + 1) = m.slice n ++ [b] := by
  rw [slice_succ]
  congr 1
  · refine List.map_congr_left fun a ha => ?_
    rw [cell_write, if_neg (by have := List.mem_range.mp ha; omega)]
  · simp [cell_write]

theorem cell_store (m : Memory) (bytes : List Byte) (a : Nat) (h : a < bytes.length) :
    some ((m.store 0 bytes).cell a) = bytes[a]? := by
  unfold Memory.cell
  rw [read?_store, if_pos (by omega)]
  simp [List.getElem?_eq_getElem h]

/-- A stored sequence reads back as a slice. -/
theorem slice_store (m : Memory) (bytes : List Byte) :
    (m.store 0 bytes).slice bytes.length = bytes := by
  refine List.ext_getElem? fun a => ?_
  by_cases h : a < bytes.length
  · rw [slice_get? _ _ _ h, cell_store _ _ _ h]
  · rw [List.getElem?_eq_none (by simp; omega), List.getElem?_eq_none (by omega)]

end Sys2Proof.Machine
end

