-- ==== Sys2Proof/Laws/State.lean ====
section
/-! SUPPORT. What each named update of the state leaves each field as: one lemma per field per update,
so that no proof unfolds a record update. -/

namespace Sys2Proof.Machine

variable (s : State)

/-! ### `emit` -/

@[simp] theorem emit_cfg (e : Diagnostic) :
    (s.emit e).cfg = s.cfg := rfl
@[simp] theorem emit_rxBuf (e : Diagnostic) :
    (s.emit e).rxBuf = s.rxBuf := rfl
@[simp] theorem emit_writeIndex (e : Diagnostic) :
    (s.emit e).writeIndex = s.writeIndex := rfl
@[simp] theorem emit_expectedLength (e : Diagnostic) :
    (s.emit e).expectedLength = s.expectedLength := rfl
@[simp] theorem emit_pendingName (e : Diagnostic) :
    (s.emit e).pendingName = s.pendingName := rfl
@[simp] theorem emit_session (e : Diagnostic) :
    (s.emit e).session = s.session := rfl
@[simp] theorem emit_lastNameBody (e : Diagnostic) :
    (s.emit e).lastNameBody = s.lastNameBody := rfl
@[simp] theorem emit_lastNameBorder (e : Diagnostic) :
    (s.emit e).lastNameBorder = s.lastNameBorder := rfl
@[simp] theorem emit_txBuf (e : Diagnostic) :
    (s.emit e).txBuf = s.txBuf := rfl
@[simp] theorem emit_rxStream (e : Diagnostic) :
    (s.emit e).rxStream = s.rxStream := rfl
@[simp] theorem emit_bulkStream (e : Diagnostic) :
    (s.emit e).bulkStream = s.bulkStream := rfl
@[simp] theorem emit_schedule (e : Diagnostic) :
    (s.emit e).schedule = s.schedule := rfl
@[simp] theorem emit_joinAnswers (e : Diagnostic) :
    (s.emit e).joinAnswers = s.joinAnswers := rfl
@[simp] theorem emit_openAnswers (e : Diagnostic) :
    (s.emit e).openAnswers = s.openAnswers := rfl
@[simp] theorem emit_countAnswers (e : Diagnostic) :
    (s.emit e).countAnswers = s.countAnswers := rfl
@[simp] theorem emit_draws (e : Diagnostic) :
    (s.emit e).draws = s.draws := rfl
@[simp] theorem emit_transmitted (e : Diagnostic) :
    (s.emit e).transmitted = s.transmitted := rfl
@[simp] theorem emit_calls (e : Diagnostic) :
    (s.emit e).calls = s.calls := rfl
@[simp] theorem emit_events (e : Diagnostic) :
    (s.emit e).events = s.events ++ [e] := rfl

/-! ### `record` -/

@[simp] theorem record_cfg (c : Call) :
    (s.record c).cfg = s.cfg := rfl
@[simp] theorem record_rxBuf (c : Call) :
    (s.record c).rxBuf = s.rxBuf := rfl
@[simp] theorem record_writeIndex (c : Call) :
    (s.record c).writeIndex = s.writeIndex := rfl
@[simp] theorem record_expectedLength (c : Call) :
    (s.record c).expectedLength = s.expectedLength := rfl
@[simp] theorem record_pendingName (c : Call) :
    (s.record c).pendingName = s.pendingName := rfl
@[simp] theorem record_session (c : Call) :
    (s.record c).session = s.session := rfl
@[simp] theorem record_lastNameBody (c : Call) :
    (s.record c).lastNameBody = s.lastNameBody := rfl
@[simp] theorem record_lastNameBorder (c : Call) :
    (s.record c).lastNameBorder = s.lastNameBorder := rfl
@[simp] theorem record_txBuf (c : Call) :
    (s.record c).txBuf = s.txBuf := rfl
@[simp] theorem record_rxStream (c : Call) :
    (s.record c).rxStream = s.rxStream := rfl
@[simp] theorem record_bulkStream (c : Call) :
    (s.record c).bulkStream = s.bulkStream := rfl
@[simp] theorem record_schedule (c : Call) :
    (s.record c).schedule = s.schedule := rfl
@[simp] theorem record_joinAnswers (c : Call) :
    (s.record c).joinAnswers = s.joinAnswers := rfl
@[simp] theorem record_openAnswers (c : Call) :
    (s.record c).openAnswers = s.openAnswers := rfl
@[simp] theorem record_countAnswers (c : Call) :
    (s.record c).countAnswers = s.countAnswers := rfl
@[simp] theorem record_draws (c : Call) :
    (s.record c).draws = s.draws := rfl
@[simp] theorem record_transmitted (c : Call) :
    (s.record c).transmitted = s.transmitted := rfl
@[simp] theorem record_calls (c : Call) :
    (s.record c).calls = s.calls ++ [c] := rfl
@[simp] theorem record_events (c : Call) :
    (s.record c).events = s.events := rfl

/-! ### `resetReassembly` -/

@[simp] theorem resetReassembly_cfg :
    (s.resetReassembly).cfg = s.cfg := rfl
@[simp] theorem resetReassembly_rxBuf :
    (s.resetReassembly).rxBuf = s.rxBuf := rfl
@[simp] theorem resetReassembly_writeIndex :
    (s.resetReassembly).writeIndex = 0 := rfl
@[simp] theorem resetReassembly_expectedLength :
    (s.resetReassembly).expectedLength = 0 := rfl
@[simp] theorem resetReassembly_pendingName :
    (s.resetReassembly).pendingName = s.pendingName := rfl
@[simp] theorem resetReassembly_session :
    (s.resetReassembly).session = s.session := rfl
@[simp] theorem resetReassembly_lastNameBody :
    (s.resetReassembly).lastNameBody = s.lastNameBody := rfl
@[simp] theorem resetReassembly_lastNameBorder :
    (s.resetReassembly).lastNameBorder = s.lastNameBorder := rfl
@[simp] theorem resetReassembly_txBuf :
    (s.resetReassembly).txBuf = s.txBuf := rfl
@[simp] theorem resetReassembly_rxStream :
    (s.resetReassembly).rxStream = s.rxStream := rfl
@[simp] theorem resetReassembly_bulkStream :
    (s.resetReassembly).bulkStream = s.bulkStream := rfl
@[simp] theorem resetReassembly_schedule :
    (s.resetReassembly).schedule = s.schedule := rfl
@[simp] theorem resetReassembly_joinAnswers :
    (s.resetReassembly).joinAnswers = s.joinAnswers := rfl
@[simp] theorem resetReassembly_openAnswers :
    (s.resetReassembly).openAnswers = s.openAnswers := rfl
@[simp] theorem resetReassembly_countAnswers :
    (s.resetReassembly).countAnswers = s.countAnswers := rfl
@[simp] theorem resetReassembly_draws :
    (s.resetReassembly).draws = s.draws := rfl
@[simp] theorem resetReassembly_transmitted :
    (s.resetReassembly).transmitted = s.transmitted := rfl
@[simp] theorem resetReassembly_calls :
    (s.resetReassembly).calls = s.calls := rfl
@[simp] theorem resetReassembly_events :
    (s.resetReassembly).events = s.events := rfl

/-! ### `append` -/

@[simp] theorem append_cfg (b : Byte) :
    (s.append b).cfg = s.cfg := rfl
@[simp] theorem append_rxBuf (b : Byte) :
    (s.append b).rxBuf = s.rxBuf.write s.writeIndex b := rfl
@[simp] theorem append_writeIndex (b : Byte) :
    (s.append b).writeIndex = s.writeIndex + 1 := rfl
@[simp] theorem append_expectedLength (b : Byte) :
    (s.append b).expectedLength = s.expectedLength := rfl
@[simp] theorem append_pendingName (b : Byte) :
    (s.append b).pendingName = s.pendingName := rfl
@[simp] theorem append_session (b : Byte) :
    (s.append b).session = s.session := rfl
@[simp] theorem append_lastNameBody (b : Byte) :
    (s.append b).lastNameBody = s.lastNameBody := rfl
@[simp] theorem append_lastNameBorder (b : Byte) :
    (s.append b).lastNameBorder = s.lastNameBorder := rfl
@[simp] theorem append_txBuf (b : Byte) :
    (s.append b).txBuf = s.txBuf := rfl
@[simp] theorem append_rxStream (b : Byte) :
    (s.append b).rxStream = s.rxStream := rfl
@[simp] theorem append_bulkStream (b : Byte) :
    (s.append b).bulkStream = s.bulkStream := rfl
@[simp] theorem append_schedule (b : Byte) :
    (s.append b).schedule = s.schedule := rfl
@[simp] theorem append_joinAnswers (b : Byte) :
    (s.append b).joinAnswers = s.joinAnswers := rfl
@[simp] theorem append_openAnswers (b : Byte) :
    (s.append b).openAnswers = s.openAnswers := rfl
@[simp] theorem append_countAnswers (b : Byte) :
    (s.append b).countAnswers = s.countAnswers := rfl
@[simp] theorem append_draws (b : Byte) :
    (s.append b).draws = s.draws := rfl
@[simp] theorem append_transmitted (b : Byte) :
    (s.append b).transmitted = s.transmitted := rfl
@[simp] theorem append_calls (b : Byte) :
    (s.append b).calls = s.calls := rfl
@[simp] theorem append_events (b : Byte) :
    (s.append b).events = s.events := rfl

/-! ### `txSend` -/

@[simp] theorem txSend_cfg (f : List Byte) :
    (s.txSend f).cfg = s.cfg := rfl
@[simp] theorem txSend_rxBuf (f : List Byte) :
    (s.txSend f).rxBuf = s.rxBuf := rfl
@[simp] theorem txSend_writeIndex (f : List Byte) :
    (s.txSend f).writeIndex = s.writeIndex := rfl
@[simp] theorem txSend_expectedLength (f : List Byte) :
    (s.txSend f).expectedLength = s.expectedLength := rfl
@[simp] theorem txSend_pendingName (f : List Byte) :
    (s.txSend f).pendingName = s.pendingName := rfl
@[simp] theorem txSend_session (f : List Byte) :
    (s.txSend f).session = s.session := rfl
@[simp] theorem txSend_lastNameBody (f : List Byte) :
    (s.txSend f).lastNameBody = s.lastNameBody := rfl
@[simp] theorem txSend_lastNameBorder (f : List Byte) :
    (s.txSend f).lastNameBorder = s.lastNameBorder := rfl
@[simp] theorem txSend_txBuf (f : List Byte) :
    (s.txSend f).txBuf = s.txBuf.store 0 f := rfl
@[simp] theorem txSend_rxStream (f : List Byte) :
    (s.txSend f).rxStream = s.rxStream := rfl
@[simp] theorem txSend_bulkStream (f : List Byte) :
    (s.txSend f).bulkStream = s.bulkStream := rfl
@[simp] theorem txSend_schedule (f : List Byte) :
    (s.txSend f).schedule = s.schedule := rfl
@[simp] theorem txSend_joinAnswers (f : List Byte) :
    (s.txSend f).joinAnswers = s.joinAnswers := rfl
@[simp] theorem txSend_openAnswers (f : List Byte) :
    (s.txSend f).openAnswers = s.openAnswers := rfl
@[simp] theorem txSend_countAnswers (f : List Byte) :
    (s.txSend f).countAnswers = s.countAnswers := rfl
@[simp] theorem txSend_draws (f : List Byte) :
    (s.txSend f).draws = s.draws := rfl
@[simp] theorem txSend_transmitted (f : List Byte) :
    (s.txSend f).transmitted = s.transmitted ++ [f] := rfl
@[simp] theorem txSend_calls (f : List Byte) :
    (s.txSend f).calls = s.calls := rfl
@[simp] theorem txSend_events (f : List Byte) :
    (s.txSend f).events = s.events := rfl

/-! ### `queryJoinStatus` -/

@[simp] theorem queryJoinStatus_cfg :
    ((queryJoinStatus s).2).cfg = s.cfg := rfl
@[simp] theorem queryJoinStatus_rxBuf :
    ((queryJoinStatus s).2).rxBuf = s.rxBuf := rfl
@[simp] theorem queryJoinStatus_writeIndex :
    ((queryJoinStatus s).2).writeIndex = s.writeIndex := rfl
@[simp] theorem queryJoinStatus_expectedLength :
    ((queryJoinStatus s).2).expectedLength = s.expectedLength := rfl
@[simp] theorem queryJoinStatus_pendingName :
    ((queryJoinStatus s).2).pendingName = s.pendingName := rfl
@[simp] theorem queryJoinStatus_session :
    ((queryJoinStatus s).2).session = s.session := rfl
@[simp] theorem queryJoinStatus_lastNameBody :
    ((queryJoinStatus s).2).lastNameBody = s.lastNameBody := rfl
@[simp] theorem queryJoinStatus_lastNameBorder :
    ((queryJoinStatus s).2).lastNameBorder = s.lastNameBorder := rfl
@[simp] theorem queryJoinStatus_txBuf :
    ((queryJoinStatus s).2).txBuf = s.txBuf := rfl
@[simp] theorem queryJoinStatus_rxStream :
    ((queryJoinStatus s).2).rxStream = s.rxStream := rfl
@[simp] theorem queryJoinStatus_bulkStream :
    ((queryJoinStatus s).2).bulkStream = s.bulkStream := rfl
@[simp] theorem queryJoinStatus_schedule :
    ((queryJoinStatus s).2).schedule = s.schedule := rfl
@[simp] theorem queryJoinStatus_joinAnswers :
    ((queryJoinStatus s).2).joinAnswers = s.joinAnswers.tail := rfl
@[simp] theorem queryJoinStatus_openAnswers :
    ((queryJoinStatus s).2).openAnswers = s.openAnswers := rfl
@[simp] theorem queryJoinStatus_countAnswers :
    ((queryJoinStatus s).2).countAnswers = s.countAnswers := rfl
@[simp] theorem queryJoinStatus_draws :
    ((queryJoinStatus s).2).draws = s.draws + 1 := rfl
@[simp] theorem queryJoinStatus_transmitted :
    ((queryJoinStatus s).2).transmitted = s.transmitted := rfl
@[simp] theorem queryJoinStatus_calls :
    ((queryJoinStatus s).2).calls = s.calls ++ [.queryJoinStatus s.nextJoin] := rfl
@[simp] theorem queryJoinStatus_events :
    ((queryJoinStatus s).2).events = s.events := rfl

/-! ### `openWritable` -/

@[simp] theorem openWritable_cfg (name : List Byte) :
    ((openWritable name s).2).cfg = s.cfg := rfl
@[simp] theorem openWritable_rxBuf (name : List Byte) :
    ((openWritable name s).2).rxBuf = s.rxBuf := rfl
@[simp] theorem openWritable_writeIndex (name : List Byte) :
    ((openWritable name s).2).writeIndex = s.writeIndex := rfl
@[simp] theorem openWritable_expectedLength (name : List Byte) :
    ((openWritable name s).2).expectedLength = s.expectedLength := rfl
@[simp] theorem openWritable_pendingName (name : List Byte) :
    ((openWritable name s).2).pendingName = s.pendingName := rfl
@[simp] theorem openWritable_session (name : List Byte) :
    ((openWritable name s).2).session = s.session := rfl
@[simp] theorem openWritable_lastNameBody (name : List Byte) :
    ((openWritable name s).2).lastNameBody = s.lastNameBody := rfl
@[simp] theorem openWritable_lastNameBorder (name : List Byte) :
    ((openWritable name s).2).lastNameBorder = s.lastNameBorder := rfl
@[simp] theorem openWritable_txBuf (name : List Byte) :
    ((openWritable name s).2).txBuf = s.txBuf := rfl
@[simp] theorem openWritable_rxStream (name : List Byte) :
    ((openWritable name s).2).rxStream = s.rxStream := rfl
@[simp] theorem openWritable_bulkStream (name : List Byte) :
    ((openWritable name s).2).bulkStream = s.bulkStream := rfl
@[simp] theorem openWritable_schedule (name : List Byte) :
    ((openWritable name s).2).schedule = s.schedule := rfl
@[simp] theorem openWritable_joinAnswers (name : List Byte) :
    ((openWritable name s).2).joinAnswers = s.joinAnswers := rfl
@[simp] theorem openWritable_openAnswers (name : List Byte) :
    ((openWritable name s).2).openAnswers = s.openAnswers.tail := rfl
@[simp] theorem openWritable_countAnswers (name : List Byte) :
    ((openWritable name s).2).countAnswers = s.countAnswers := rfl
@[simp] theorem openWritable_draws (name : List Byte) :
    ((openWritable name s).2).draws = s.draws + 1 := rfl
@[simp] theorem openWritable_transmitted (name : List Byte) :
    ((openWritable name s).2).transmitted = s.transmitted := rfl
@[simp] theorem openWritable_calls (name : List Byte) :
    ((openWritable name s).2).calls = s.calls ++ [.openWritable name s.nextOpen] := rfl
@[simp] theorem openWritable_events (name : List Byte) :
    ((openWritable name s).2).events = s.events := rfl

/-! ### `unitCount` -/

@[simp] theorem unitCount_cfg (k : Category) (name : List Byte) :
    ((unitCount k name s).2).cfg = s.cfg := rfl
@[simp] theorem unitCount_rxBuf (k : Category) (name : List Byte) :
    ((unitCount k name s).2).rxBuf = s.rxBuf := rfl
@[simp] theorem unitCount_writeIndex (k : Category) (name : List Byte) :
    ((unitCount k name s).2).writeIndex = s.writeIndex := rfl
@[simp] theorem unitCount_expectedLength (k : Category) (name : List Byte) :
    ((unitCount k name s).2).expectedLength = s.expectedLength := rfl
@[simp] theorem unitCount_pendingName (k : Category) (name : List Byte) :
    ((unitCount k name s).2).pendingName = s.pendingName := rfl
@[simp] theorem unitCount_session (k : Category) (name : List Byte) :
    ((unitCount k name s).2).session = s.session := rfl
@[simp] theorem unitCount_lastNameBody (k : Category) (name : List Byte) :
    ((unitCount k name s).2).lastNameBody = s.lastNameBody := rfl
@[simp] theorem unitCount_lastNameBorder (k : Category) (name : List Byte) :
    ((unitCount k name s).2).lastNameBorder = s.lastNameBorder := rfl
@[simp] theorem unitCount_txBuf (k : Category) (name : List Byte) :
    ((unitCount k name s).2).txBuf = s.txBuf := rfl
@[simp] theorem unitCount_rxStream (k : Category) (name : List Byte) :
    ((unitCount k name s).2).rxStream = s.rxStream := rfl
@[simp] theorem unitCount_bulkStream (k : Category) (name : List Byte) :
    ((unitCount k name s).2).bulkStream = s.bulkStream := rfl
@[simp] theorem unitCount_schedule (k : Category) (name : List Byte) :
    ((unitCount k name s).2).schedule = s.schedule := rfl
@[simp] theorem unitCount_joinAnswers (k : Category) (name : List Byte) :
    ((unitCount k name s).2).joinAnswers = s.joinAnswers := rfl
@[simp] theorem unitCount_openAnswers (k : Category) (name : List Byte) :
    ((unitCount k name s).2).openAnswers = s.openAnswers := rfl
@[simp] theorem unitCount_countAnswers (k : Category) (name : List Byte) :
    ((unitCount k name s).2).countAnswers = s.countAnswers.tail := rfl
@[simp] theorem unitCount_draws (k : Category) (name : List Byte) :
    ((unitCount k name s).2).draws = s.draws + 1 := rfl
@[simp] theorem unitCount_transmitted (k : Category) (name : List Byte) :
    ((unitCount k name s).2).transmitted = s.transmitted := rfl
@[simp] theorem unitCount_calls (k : Category) (name : List Byte) :
    ((unitCount k name s).2).calls = s.calls ++ [.unitCount k name s.nextCount] := rfl
@[simp] theorem unitCount_events (k : Category) (name : List Byte) :
    ((unitCount k name s).2).events = s.events := rfl

/-! ### `setLastName` -/

@[simp] theorem setLastName_cfg (k : Category) (field : List Byte) :
    (s.setLastName k field).cfg = s.cfg := by cases k <;> rfl
@[simp] theorem setLastName_rxBuf (k : Category) (field : List Byte) :
    (s.setLastName k field).rxBuf = s.rxBuf := by cases k <;> rfl
@[simp] theorem setLastName_writeIndex (k : Category) (field : List Byte) :
    (s.setLastName k field).writeIndex = s.writeIndex := by cases k <;> rfl
@[simp] theorem setLastName_expectedLength (k : Category) (field : List Byte) :
    (s.setLastName k field).expectedLength = s.expectedLength := by cases k <;> rfl
@[simp] theorem setLastName_pendingName (k : Category) (field : List Byte) :
    (s.setLastName k field).pendingName = s.pendingName := by cases k <;> rfl
@[simp] theorem setLastName_session (k : Category) (field : List Byte) :
    (s.setLastName k field).session = s.session := by cases k <;> rfl
@[simp] theorem setLastName_lastNameBody (k : Category) (field : List Byte) :
    (s.setLastName k field).lastNameBody = if k = .body then field else s.lastNameBody := by cases k <;> rfl
@[simp] theorem setLastName_lastNameBorder (k : Category) (field : List Byte) :
    (s.setLastName k field).lastNameBorder = if k = .border then field else s.lastNameBorder := by cases k <;> rfl
@[simp] theorem setLastName_txBuf (k : Category) (field : List Byte) :
    (s.setLastName k field).txBuf = s.txBuf := by cases k <;> rfl
@[simp] theorem setLastName_rxStream (k : Category) (field : List Byte) :
    (s.setLastName k field).rxStream = s.rxStream := by cases k <;> rfl
@[simp] theorem setLastName_bulkStream (k : Category) (field : List Byte) :
    (s.setLastName k field).bulkStream = s.bulkStream := by cases k <;> rfl
@[simp] theorem setLastName_schedule (k : Category) (field : List Byte) :
    (s.setLastName k field).schedule = s.schedule := by cases k <;> rfl
@[simp] theorem setLastName_joinAnswers (k : Category) (field : List Byte) :
    (s.setLastName k field).joinAnswers = s.joinAnswers := by cases k <;> rfl
@[simp] theorem setLastName_openAnswers (k : Category) (field : List Byte) :
    (s.setLastName k field).openAnswers = s.openAnswers := by cases k <;> rfl
@[simp] theorem setLastName_countAnswers (k : Category) (field : List Byte) :
    (s.setLastName k field).countAnswers = s.countAnswers := by cases k <;> rfl
@[simp] theorem setLastName_draws (k : Category) (field : List Byte) :
    (s.setLastName k field).draws = s.draws := by cases k <;> rfl
@[simp] theorem setLastName_transmitted (k : Category) (field : List Byte) :
    (s.setLastName k field).transmitted = s.transmitted := by cases k <;> rfl
@[simp] theorem setLastName_calls (k : Category) (field : List Byte) :
    (s.setLastName k field).calls = s.calls := by cases k <;> rfl
@[simp] theorem setLastName_events (k : Category) (field : List Byte) :
    (s.setLastName k field).events = s.events := by cases k <;> rfl

/-! ### `closeSession` -/

theorem closeSession_eq :
    closeSession s = { s with session := none, calls := s.calls ++ closeCalls s } := by
  obtain ⟨_, _, _, _, _, _ | _, _⟩ := s <;> simp [closeSession, closeCalls, State.record]
/-- What FINALIZE can do (R252). -/
theorem finalize_eq :
    finalize s = { s with session := none, calls := s.calls ++ closeCalls s } := closeSession_eq s

@[simp] theorem closeSession_cfg : (closeSession s).cfg = s.cfg := by
  rw [closeSession_eq]
@[simp] theorem closeSession_rxBuf : (closeSession s).rxBuf = s.rxBuf := by
  rw [closeSession_eq]
@[simp] theorem closeSession_writeIndex : (closeSession s).writeIndex = s.writeIndex := by
  rw [closeSession_eq]
@[simp] theorem closeSession_expectedLength : (closeSession s).expectedLength = s.expectedLength := by
  rw [closeSession_eq]
@[simp] theorem closeSession_pendingName : (closeSession s).pendingName = s.pendingName := by
  rw [closeSession_eq]
@[simp] theorem closeSession_session : (closeSession s).session = none := by
  rw [closeSession_eq]
@[simp] theorem closeSession_lastNameBody : (closeSession s).lastNameBody = s.lastNameBody := by
  rw [closeSession_eq]
@[simp] theorem closeSession_lastNameBorder : (closeSession s).lastNameBorder = s.lastNameBorder := by
  rw [closeSession_eq]
@[simp] theorem closeSession_txBuf : (closeSession s).txBuf = s.txBuf := by
  rw [closeSession_eq]
@[simp] theorem closeSession_rxStream : (closeSession s).rxStream = s.rxStream := by
  rw [closeSession_eq]
@[simp] theorem closeSession_bulkStream : (closeSession s).bulkStream = s.bulkStream := by
  rw [closeSession_eq]
@[simp] theorem closeSession_schedule : (closeSession s).schedule = s.schedule := by
  rw [closeSession_eq]
@[simp] theorem closeSession_joinAnswers : (closeSession s).joinAnswers = s.joinAnswers := by
  rw [closeSession_eq]
@[simp] theorem closeSession_openAnswers : (closeSession s).openAnswers = s.openAnswers := by
  rw [closeSession_eq]
@[simp] theorem closeSession_countAnswers : (closeSession s).countAnswers = s.countAnswers := by
  rw [closeSession_eq]
@[simp] theorem closeSession_draws : (closeSession s).draws = s.draws := by
  rw [closeSession_eq]
@[simp] theorem closeSession_transmitted : (closeSession s).transmitted = s.transmitted := by
  rw [closeSession_eq]
@[simp] theorem closeSession_calls : (closeSession s).calls = s.calls ++ closeCalls s := by
  rw [closeSession_eq]
@[simp] theorem closeSession_events : (closeSession s).events = s.events := by
  rw [closeSession_eq]

end Sys2Proof.Machine
end

