-- ==== Sys2Proof/Laws/Ops.lean ====
section
/-! SUPPORT. What each shared operation can do, said once, for proofs to cite. -/

namespace Sys2Proof.Machine

/-- If a reply goes out, its payload fits and its frame is sent. -/
theorem reply_next {code : Byte} {payload : List Byte} {s t : State}
    (h : reply code payload s = .next t) :
    s.cfg.fitsTx payload.length ∧ t = s.txSend (frame s.cfg code payload) := by
  unfold reply at h
  split at h
  · rename_i hf
    exact ⟨hf, (Host.Outcome.next.inj h).symm⟩
  · cases h

theorem reply_of_fits {code : Byte} {payload : List Byte} {s : State}
    (h : s.cfg.fitsTx payload.length) :
    reply code payload s = .next (s.txSend (frame s.cfg code payload)) := by
  simp [reply, h]

/-- Under a legal configuration a one-byte payload always fits. -/
theorem fitsTx_one {cfg : Config} (legal : cfg.Legal) : cfg.fitsTx 1 := by
  have h1 := legal.overhead
  have h2 := legal.txLower
  have h3 := legal.statusLen
  unfold Config.fitsTx
  omega

/-- A one-byte reply is its six-byte frame. -/
theorem reply_short {code result : Byte} {s : State} (legal : s.cfg.Legal) :
    reply code [result] s = .next (s.txSend (shortFrame s.cfg code result)) := by
  rw [reply_of_fits (fitsTx_one legal), frame_singleton]
  rfl

/-- A condition that does not reset the framer raises its event and nothing else. -/
@[simp] theorem raise_malformed (s : State) : raise .malformed s = s.emit .malformed := rfl
@[simp] theorem raise_lengthMismatch (s : State) (c : Byte) :
    raise (.lengthMismatch c) s = s.emit (.lengthMismatch c) := rfl
@[simp] theorem raise_checksumFailed (s : State) (c : Byte) :
    raise (.checksumFailed c) s = s.emit (.checksumFailed c) := rfl
@[simp] theorem raise_unknownCommand (s : State) (c : Byte) :
    raise (.unknownCommand c) s = s.emit (.unknownCommand c) := rfl
@[simp] theorem raise_storageOpenFailure (s : State) (c : Byte) :
    raise (.storageOpenFailure c) s = s.emit (.storageOpenFailure c) := rfl
@[simp] theorem raise_seekDiscard (s : State) : raise .seekDiscard s = s := rfl
@[simp] theorem raise_overflow (s : State) :
    raise .overflow s = s.resetReassembly.emit .overflow := rfl
@[simp] theorem raise_lengthTooLarge (s : State) :
    raise .lengthTooLarge s = s.resetReassembly.emit .lengthTooLarge := rfl

theorem takeCondition_silent {c : Condition} {s : State} (h : c.response? s.cfg = none) :
    takeCondition c s = .next (raise c s) := by
  simp [takeCondition, h]

theorem takeCondition_answered {c : Condition} {s : State} {code result : Byte}
    (h : c.response? s.cfg = some (code, result)) :
    takeCondition c s = reply code [result] (raise c s) := by
  simp [takeCondition, h]

/-- The count of a category, and what counting changes. -/
theorem total_cases (k : Category) (s : State) :
    (s.lastName k = emptyName s.cfg ∧ total k s = (0, s)) ∨
    (s.lastName k ≠ emptyName s.cfg ∧
      total k s = (s.nextCount, (unitCount k (s.lastName k) s).2)) := by
  by_cases h : s.lastName k = emptyName s.cfg
  · exact .inl ⟨h, by simp [total, h]⟩
  · exact .inr ⟨h, by simp [total, h, unitCount]⟩

/-- What a WRITECHUNK can do: nothing for an empty chunk, else its bytes are consumed, and written where
there is a session (R251). -/
theorem writeChunk_cases (n : Nat) (s : State) :
    (s.bulkStream.take n = [] ∧ writeChunk n s = s) ∨
    (s.bulkStream.take n ≠ [] ∧ s.session = none ∧
      writeChunk n s = { s with bulkStream := s.bulkStream.drop n }) ∨
    (∃ active, s.bulkStream.take n ≠ [] ∧ s.session = some active ∧
      writeChunk n s = { s with
        bulkStream := s.bulkStream.drop n
        calls := s.calls ++ [.write active.handle (s.bulkStream.take n)] }) := by
  unfold writeChunk
  cases ht : s.bulkStream.take n with
  | nil => exact .inl ⟨rfl, rfl⟩
  | cons b rest =>
    cases hs : s.session with
    | none => exact .inr (.inl ⟨by simp, rfl, rfl⟩)
    | some active => exact .inr (.inr ⟨active, by simp, rfl, rfl⟩)

end Sys2Proof.Machine
end

