-- ==== Sys2Proof/Laws/Exec.lean ====
section
/-! SUPPORT. What an instruction can do, said once: an effect on the dispatcher's state and the
collaborators, then one reply, or none, or the refusal of R209. -/

namespace Sys2Proof.Machine

/-- The effect of an instruction before its reply goes out: what every instruction leaves alone, and
who writes what it does not. -/
structure HandlerEffect (i : Instr) (s u : State) : Prop where
  cfg : u.cfg = s.cfg
  rxBuf : u.rxBuf = s.rxBuf
  writeIndex : u.writeIndex = s.writeIndex
  expectedLength : u.expectedLength = s.expectedLength
  txBuf : u.txBuf = s.txBuf
  rxStream : u.rxStream = s.rxStream
  bulkStream : u.bulkStream = s.bulkStream
  schedule : u.schedule = s.schedule
  transmitted : u.transmitted = s.transmitted
  pendingName : u.pendingName = s.pendingName ∨ i = .netConnect u.pendingName
  lastNames : (u.lastNameBody = s.lastNameBody ∧ u.lastNameBorder = s.lastNameBorder) ∨
    ∃ p name, i = .xferStart p ∧
      (u.lastNameBody = s.lastNameBody ∨ u.lastNameBody = fieldOf s.cfg name) ∧
      (u.lastNameBorder = s.lastNameBorder ∨ u.lastNameBorder = fieldOf s.cfg name)
  session : u.session = s.session ∨
    (∃ p, i = .xferStart p ∧ ∀ active ∈ u.session, active.name.length + 1 = p.length) ∨
    ((∃ p, i = .xferEnd p) ∧ u.session = none)
  calls : ∃ new, u.calls = s.calls ++ new ∧
    new.foldlM ownerStep (s.session.map (·.handle)) = some (u.session.map (·.handle))
  events : u.events = s.events ∨ ∃ e, u.events = s.events ++ [e]

/-- The sent form that a reply is, and that it is well-formed: for a request under a legal
configuration and the shapes of R30, for a sent form when it is well-formed itself. -/
def IsSentForm (i : Instr) (s : State) (payload : List Byte) : Prop :=
  ∃ g : Instr, g.isRequest = false ∧ g.code s.cfg = i.code s.cfg ∧ g.payload s.cfg = payload ∧
    (s.cfg.Legal → NameField s.lastNameBody → NameField s.lastNameBorder →
      (i.isRequest = false → i.wellFormed s.cfg = true) → g.wellFormed s.cfg = true)

theorem closeCalls_owned (s : State) :
    (closeCalls s).foldlM ownerStep (s.session.map (·.handle)) = some none := by
  unfold closeCalls
  cases s.session <;> simp [ownerStep]

theorem total_effect (k : Category) (s : State) :
    (total k s).2 = s ∨ ∃ name n, (total k s).2 = { s with
      countAnswers := s.countAnswers.tail, draws := s.draws + 1
      calls := s.calls ++ [.unitCount k name n] } := by
  rcases total_cases k s with h | h
  · exact .inl (by rw [h.2])
  · exact .inr ⟨s.lastName k, s.nextCount, by rw [h.2]; rfl⟩

/-- The name fields of a record are where the fixed fields of R100 and R101 want them. -/
theorem statusRecord_fixed {cfg : Config} (legal : cfg.Legal) (n m : Count) {body border : List Byte}
    (hb : NameField body) (hc : border.length = 16) :
    ((statusRecord n m body border).take cfg.statusLen).length = cfg.statusLen ∧
      statusFieldsFixed ((statusRecord n m body border).take cfg.statusLen) = true := by
  obtain ⟨hl, h15⟩ := hb
  match body, hl with
  | [c0, c1, c2, c3, c4, c5, c6, c7, c8, c9, c10, c11, c12, c13, c14, c15], _ =>
    match border, hc with
    | [d0, d1, d2, d3, d4, d5, d6, d7, d8, d9, d10, d11, d12, d13, d14, d15], _ =>
      simp only [List.getElem?_cons_succ, List.getElem?_cons_zero, Option.some.injEq] at h15
      subst h15
      rcases legal.statusLen with h | h <;> rw [h] <;>
        simp [statusRecord, le32, statusFieldsFixed, List.replicate]

/-- Every instruction: its effect, then its reply, or nothing more, or the refusal of R209. -/
theorem exec_shape (i : Instr) (s : State) :
    (∃ p u, exec i s = reply (i.code s.cfg) p u ∧ HandlerEffect i s u ∧ IsSentForm i s p) ∨
    (∃ u, exec i s = .next u ∧ HandlerEffect i s u) ∨
    (exec i s = .refused .startPayloadUndefined ∧ s.cfg.startBadPayload = .refuse ∧
      ∃ p, i = .xferStart p ∧ startOperands s.cfg p = none) := by
  have same : ∀ {j : Instr} {u : State}, u.cfg = s.cfg → u.rxBuf = s.rxBuf →
      u.writeIndex = s.writeIndex → u.expectedLength = s.expectedLength → u.txBuf = s.txBuf →
      u.rxStream = s.rxStream → u.bulkStream = s.bulkStream → u.schedule = s.schedule →
      u.transmitted = s.transmitted → u.pendingName = s.pendingName →
      u.lastNameBody = s.lastNameBody → u.lastNameBorder = s.lastNameBorder →
      u.session = s.session → (∃ new, u.calls = s.calls ++ new ∧
        new.foldlM ownerStep (s.session.map (·.handle)) = some (s.session.map (·.handle))) →
      (u.events = s.events ∨ ∃ e, u.events = s.events ++ [e]) → HandlerEffect j s u := by
    intro j u h1 h2 h3 h4 h5 h6 h7 h8 h9 h10 h11 h12 h13 h14 h15
    exact ⟨h1, h2, h3, h4, h5, h6, h7, h8, h9, .inl h10, .inl ⟨h11, h12⟩, .inl h13,
      by rw [h13]; exact h14, h15⟩
  have noCalls : ∃ new : List Call, s.calls = s.calls ++ new ∧
      new.foldlM ownerStep (s.session.map (·.handle)) = some (s.session.map (·.handle)) :=
    ⟨[], by simp, rfl⟩
  cases i with
  | netConnect name =>
    refine .inl ⟨_, { s with pendingName := name }, rfl, ?_, .success s.cfg.cmdNetConnect, rfl, rfl,
      rfl, fun _ _ _ _ => by simp [Instr.wellFormed, Config.successCodes]⟩
    exact ⟨rfl, rfl, rfl, rfl, rfl, rfl, rfl, rfl, rfl, .inr rfl, .inl ⟨rfl, rfl⟩, .inl rfl, noCalls,
      .inl rfl⟩
  | netPassword password =>
    exact .inl ⟨_, s.record (.initiateJoin s.pendingName password), rfl,
      same rfl rfl rfl rfl rfl rfl rfl rfl rfl rfl rfl rfl rfl
        ⟨[.initiateJoin s.pendingName password], rfl, rfl⟩ (.inl rfl),
      .success s.cfg.cmdNetPassword, rfl, rfl, rfl,
      fun _ _ _ _ => by simp [Instr.wellFormed, Config.successCodes]⟩
  | netConfirm ignored =>
    exact .inl ⟨_, (queryJoinStatus s).2, rfl,
      same rfl rfl rfl rfl rfl rfl rfl rfl rfl rfl rfl rfl rfl
        ⟨[.queryJoinStatus s.nextJoin], rfl, rfl⟩ (.inl rfl),
      .joinStatus s.nextJoin, rfl, rfl, rfl, fun _ _ _ _ => rfl⟩
  | fileStatus ignored =>
    refine .inl ⟨_, _, rfl, ?_, .fileStatusReply _, rfl, rfl, rfl, fun legal hb hc _ => ?_⟩
    · rcases total_effect .body s with a | ⟨n1, c1, a⟩ <;> rw [a] <;>
        [rcases total_effect .border s with b | ⟨n2, c2, b⟩;
         rcases total_effect .border { s with
           countAnswers := s.countAnswers.tail, draws := s.draws + 1
           calls := s.calls ++ [.unitCount .body n1 c1] } with b | ⟨n2, c2, b⟩] <;> rw [b]
      · exact same rfl rfl rfl rfl rfl rfl rfl rfl rfl rfl rfl rfl rfl noCalls (.inl rfl)
      · exact same rfl rfl rfl rfl rfl rfl rfl rfl rfl rfl rfl rfl rfl
          ⟨[.unitCount .border n2 c2], rfl, rfl⟩ (.inl rfl)
      · exact same rfl rfl rfl rfl rfl rfl rfl rfl rfl rfl rfl rfl rfl
          ⟨[.unitCount .body n1 c1], rfl, rfl⟩ (.inl rfl)
      · exact same rfl rfl rfl rfl rfl rfl rfl rfl rfl rfl rfl rfl rfl
          ⟨[.unitCount .body n1 c1, .unitCount .border n2 c2], by simp, rfl⟩ (.inl rfl)
    · have h := statusRecord_fixed legal (total .body s).1 (total .border (total .body s).2).1 hb hc.1
      simp [Instr.wellFormed, h.1, h.2]
  | xferStart payload =>
    show (∃ p u, execXferStart payload s = _ ∧ _) ∨ (∃ u, execXferStart payload s = _ ∧ _) ∨
      (execXferStart payload s = _ ∧ _)
    unfold execXferStart
    split
    · rename_i k name hp
      have hlen : name.length + 1 = payload.length := by
        unfold startOperands at hp
        split at hp
        · cases hp
        · split at hp
          · cases hp; rfl
          · cases hp
      unfold startTransfer
      rw [closeSession_eq]
      have hclose := closeCalls_owned s
      generalize ho : { s with session := none, calls := s.calls ++ closeCalls s }.nextOpen = answer
      have hopen : openWritable name { s with session := none, calls := s.calls ++ closeCalls s } =
          (answer, { s with
            session := none, openAnswers := s.openAnswers.tail, draws := s.draws + 1
            calls := s.calls ++ closeCalls s ++ [.openWritable name answer] }) := by
        rw [← ho]; rfl
      rw [hopen]
      cases answer with
      | some h =>
        refine .inl ⟨_, _, rfl, ?_, .success s.cfg.cmdXferStart, rfl, rfl, rfl,
          fun _ _ _ _ => by simp [Instr.wellFormed, Config.successCodes]⟩
        have hs : ∀ {f : State}, f.session = some ⟨k, name, h⟩ →
            ∀ active ∈ f.session, active.name.length + 1 = payload.length := by
          intro f hf active ha
          rw [hf] at ha
          cases ha
          exact hlen
        have hc : ∃ new, s.calls ++ closeCalls s ++ [.openWritable name (some h)] = s.calls ++ new ∧
            new.foldlM ownerStep (s.session.map (·.handle)) = some (some h) :=
          ⟨closeCalls s ++ [.openWritable name (some h)], by simp, by
            rw [List.foldlM_append, hclose]; rfl⟩
        cases k
        · exact ⟨rfl, rfl, rfl, rfl, rfl, rfl, rfl, rfl, rfl, .inl rfl,
            .inr ⟨_, name, rfl, .inr rfl, .inl rfl⟩, .inr (.inl ⟨_, rfl, hs rfl⟩), hc, .inl rfl⟩
        · exact ⟨rfl, rfl, rfl, rfl, rfl, rfl, rfl, rfl, rfl, .inl rfl,
            .inr ⟨_, name, rfl, .inl rfl, .inr rfl⟩, .inr (.inl ⟨_, rfl, hs rfl⟩), hc, .inl rfl⟩
      | none =>
        refine .inr (.inl ⟨_, takeCondition_silent rfl, ?_⟩)
        have hc : ∃ new, s.calls ++ closeCalls s ++ [.openWritable name none] = s.calls ++ new ∧
            new.foldlM ownerStep (s.session.map (·.handle)) = some none :=
          ⟨closeCalls s ++ [.openWritable name none], by simp, by
            rw [List.foldlM_append, hclose]; rfl⟩
        have hs : ∀ {f : State}, f.session = none →
            ∀ active ∈ f.session, active.name.length + 1 = payload.length := by
          intro f hf active ha
          rw [hf] at ha
          cases ha
        dsimp only
        split
        · cases k
          · exact ⟨rfl, rfl, rfl, rfl, rfl, rfl, rfl, rfl, rfl, .inl rfl,
              .inr ⟨_, name, rfl, .inr rfl, .inl rfl⟩, .inr (.inl ⟨_, rfl, hs rfl⟩), hc,
              .inr ⟨_, rfl⟩⟩
          · exact ⟨rfl, rfl, rfl, rfl, rfl, rfl, rfl, rfl, rfl, .inl rfl,
              .inr ⟨_, name, rfl, .inl rfl, .inr rfl⟩, .inr (.inl ⟨_, rfl, hs rfl⟩), hc,
              .inr ⟨_, rfl⟩⟩
        · exact ⟨rfl, rfl, rfl, rfl, rfl, rfl, rfl, rfl, rfl, .inl rfl,
            .inl ⟨rfl, rfl⟩, .inr (.inl ⟨_, rfl, hs rfl⟩), hc, .inr ⟨_, rfl⟩⟩
    · rename_i hnone
      unfold startUndefined
      split
      · exact .inr (.inl ⟨s.emit _, rfl,
          same rfl rfl rfl rfl rfl rfl rfl rfl rfl rfl rfl rfl rfl noCalls (.inr ⟨_, rfl⟩)⟩)
      · rename_i h
        exact .inr (.inr ⟨rfl, h, _, rfl, hnone⟩)
  | xferEnd ignored =>
    refine .inl ⟨_, finalize s, rfl, ?_, .success s.cfg.cmdXferEnd, rfl, rfl, rfl,
      fun _ _ _ _ => by simp [Instr.wellFormed, Config.successCodes]⟩
    rw [finalize_eq]
    exact ⟨rfl, rfl, rfl, rfl, rfl, rfl, rfl, rfl, rfl, .inl rfl, .inl ⟨rfl, rfl⟩,
      .inr (.inr ⟨⟨_, rfl⟩, rfl⟩), ⟨closeCalls s, rfl, closeCalls_owned s⟩, .inl rfl⟩
  | paramA ignored =>
    exact .inr (.inl ⟨s.emit _, rfl,
      same rfl rfl rfl rfl rfl rfl rfl rfl rfl rfl rfl rfl rfl noCalls (.inr ⟨_, rfl⟩)⟩)
  | paramB ignored =>
    exact .inr (.inl ⟨s.emit _, rfl,
      same rfl rfl rfl rfl rfl rfl rfl rfl rfl rfl rfl rfl rfl noCalls (.inr ⟨_, rfl⟩)⟩)
  | unknown code ignored =>
    exact .inr (.inl ⟨s.emit _, rfl,
      same rfl rfl rfl rfl rfl rfl rfl rfl rfl rfl rfl rfl rfl noCalls (.inr ⟨_, rfl⟩)⟩)
  | success code =>
    exact .inl ⟨_, s, rfl, same rfl rfl rfl rfl rfl rfl rfl rfl rfl rfl rfl rfl rfl noCalls (.inl rfl),
      .success code, rfl, rfl, rfl, fun _ _ _ h => h rfl⟩
  | errLen code =>
    exact .inl ⟨_, s.emit (.lengthMismatch code), rfl,
      same rfl rfl rfl rfl rfl rfl rfl rfl rfl rfl rfl rfl rfl noCalls (.inr ⟨_, rfl⟩),
      .errLen code, rfl, rfl, rfl, fun _ _ _ _ => rfl⟩
  | errCksum code =>
    exact .inl ⟨_, s.emit (.checksumFailed code), rfl,
      same rfl rfl rfl rfl rfl rfl rfl rfl rfl rfl rfl rfl rfl noCalls (.inr ⟨_, rfl⟩),
      .errCksum code, rfl, rfl, rfl, fun _ _ _ _ => rfl⟩
  | joinStatus status =>
    exact .inl ⟨_, s, rfl, same rfl rfl rfl rfl rfl rfl rfl rfl rfl rfl rfl rfl rfl noCalls (.inl rfl),
      .joinStatus status, rfl, rfl, rfl, fun _ _ _ _ => rfl⟩
  | fileStatusReply record =>
    exact .inl ⟨_, s, rfl, same rfl rfl rfl rfl rfl rfl rfl rfl rfl rfl rfl rfl rfl noCalls (.inl rfl),
      .fileStatusReply record, rfl, rfl, rfl, fun _ _ _ h => h rfl⟩

/-- If an instruction answers a next state, it is its effect, with at most one frame sent. -/
theorem exec_next {i : Instr} {s t : State} (h : exec i s = .next t) :
    ∃ u, HandlerEffect i s u ∧ (t = u ∨
      ∃ p, s.cfg.fitsTx p.length ∧ IsSentForm i s p ∧
        t = u.txSend (frame s.cfg (i.code s.cfg) p)) := by
  rcases exec_shape i s with ⟨p, u, hr, hu, hg⟩ | ⟨u, hr, hu⟩ | ⟨hr, -⟩
  · rw [hr] at h
    obtain ⟨hf, rfl⟩ := reply_next h
    rw [hu.cfg] at hf
    exact ⟨u, hu, .inr ⟨p, hf, hg, by rw [hu.cfg]⟩⟩
  · rw [hr] at h
    cases h
    exact ⟨_, hu, .inl rfl⟩
  · rw [hr] at h
    cases h

end Sys2Proof.Machine
end

