-- ==== Sys2Proof/Laws/Framer.lean ====
section
/-! SUPPORT. What one FEED can do, said once. -/

namespace Sys2Proof.Machine

/-- The `expectedLength` that the completion test sees after an append (R125). -/
def lengthAfter (b : Byte) (s : State) : Nat :=
  if s.writeIndex = 2 then b.toNat + s.cfg.overhead else s.expectedLength

theorem declaredLength_append (b : Byte) (s : State) (h : s.writeIndex = 2) :
    (s.append b).declaredLength = b.toNat + s.cfg.overhead := by
  simp [State.declaredLength, cell_write, h]

/-- After an append the completion test sees `lengthAfter`, unless the length is too large. -/
theorem extractLength_append (b : Byte) (s : State)
    (h : s.writeIndex = 2 → b.toNat + s.cfg.overhead ≤ s.cfg.rxCapacity) :
    extractLength (s.append b) =
      complete? { s.append b with expectedLength := lengthAfter b s } := by
  by_cases h2 : s.writeIndex = 2
  · have hle := h h2
    unfold extractLength
    rw [if_pos (by simp [h2]), declaredLength_append b s h2, if_neg (by simpa using hle)]
    simp [lengthAfter, h2]
  · unfold extractLength
    rw [if_neg (by simp [h2])]
    simp only [lengthAfter, h2, if_false]
    rfl

theorem complete?_yes (s : State) (h : s.expectedLength ≠ 0)
    (he : s.writeIndex = s.expectedLength) :
    complete? s = (.complete (s.rxBuf.slice s.writeIndex), s.resetReassembly) := by
  unfold complete?
  rw [if_pos ⟨h, he⟩, he]

theorem complete?_no (s : State) (h : s.expectedLength = 0 ∨ s.writeIndex ≠ s.expectedLength) :
    complete? s = (.none, s) := by
  unfold complete?
  rw [if_neg]
  rintro ⟨h1, h2⟩
  exact h.elim h1 fun h => h h2

/-- Every outcome of FEED: discard, start, overflow, and after an append a length too large, a
completed frame, or a frame still in flight (R124). -/
theorem feed_cases (b : Byte) (s : State) :
    (s.writeIndex = 0 ∧ b ≠ s.cfg.header ∧ feed b s = (.none, s)) ∨
    (s.writeIndex = 0 ∧ b = s.cfg.header ∧ feed b s = (.none,
      { s with rxBuf := s.rxBuf.write 0 b, writeIndex := 1, expectedLength := 0 })) ∨
    (s.writeIndex ≠ 0 ∧ s.cfg.rxCapacity ≤ s.writeIndex ∧
      feed b s = (.overflow, s.resetReassembly.emit .overflow)) ∨
    (s.writeIndex = 2 ∧ s.writeIndex < s.cfg.rxCapacity ∧
      s.cfg.rxCapacity < b.toNat + s.cfg.overhead ∧
      feed b s = (.lengthTooLarge, (s.append b).resetReassembly.emit .lengthTooLarge)) ∨
    (s.writeIndex ≠ 0 ∧ s.writeIndex < s.cfg.rxCapacity ∧
      (s.writeIndex = 2 → b.toNat + s.cfg.overhead ≤ s.cfg.rxCapacity) ∧
      lengthAfter b s ≠ 0 ∧ s.writeIndex + 1 = lengthAfter b s ∧
      feed b s = (.complete (s.rxBuf.slice s.writeIndex ++ [b]), (s.append b).resetReassembly)) ∨
    (s.writeIndex ≠ 0 ∧ s.writeIndex < s.cfg.rxCapacity ∧
      (s.writeIndex = 2 → b.toNat + s.cfg.overhead ≤ s.cfg.rxCapacity) ∧
      (lengthAfter b s = 0 ∨ s.writeIndex + 1 ≠ lengthAfter b s) ∧
      feed b s = (.none, { s.append b with expectedLength := lengthAfter b s })) := by
  by_cases h0 : s.writeIndex = 0
  · by_cases hb : b = s.cfg.header
    · exact .inr (.inl ⟨h0, hb, by simp [feed, h0, hb]⟩)
    · exact .inl ⟨h0, hb, by simp [feed, h0, hb]⟩
  refine .inr (.inr ?_)
  by_cases hcap : s.cfg.rxCapacity ≤ s.writeIndex
  · exact .inl ⟨h0, hcap, by simp [feed, h0, hcap]⟩
  refine .inr ?_
  have hlt : s.writeIndex < s.cfg.rxCapacity := Nat.lt_of_not_le hcap
  have hfeed : feed b s = extractLength (s.append b) := by simp [feed, h0, hcap]
  by_cases hbig : s.writeIndex = 2 ∧ s.cfg.rxCapacity < b.toNat + s.cfg.overhead
  · refine .inl ⟨hbig.1, hlt, hbig.2, ?_⟩
    rw [hfeed, extractLength, if_pos (by simp [hbig.1]), declaredLength_append b s hbig.1,
      if_pos (by simpa using hbig.2), raise_lengthTooLarge]
  have hsmall : s.writeIndex = 2 → b.toNat + s.cfg.overhead ≤ s.cfg.rxCapacity := fun h =>
    Nat.le_of_not_lt fun h' => hbig ⟨h, h'⟩
  rw [hfeed, extractLength_append b s hsmall]
  refine .inr ?_
  by_cases hc : lengthAfter b s ≠ 0 ∧ s.writeIndex + 1 = lengthAfter b s
  · refine .inl ⟨h0, hlt, hsmall, hc.1, hc.2, ?_⟩
    rw [complete?_yes _ hc.1 hc.2]
    exact Prod.ext (congrArg FrameEvent.complete (slice_write_end _ _ _)) rfl
  · have hc' : lengthAfter b s = 0 ∨ s.writeIndex + 1 ≠ lengthAfter b s := by tauto
    exact .inr ⟨h0, hlt, hsmall, hc', complete?_no _ hc'⟩

end Sys2Proof.Machine
end

