-- ==== Sys2Proof/Laws/PerInstr.lean ====
section
/-! SUPPORT. Families of statements, one lemma per instruction. `FrameShape`: the encoding of every
instruction is a frame of 30_encoding.md R80: header first, the instruction's command byte second,
footer last, five bytes more than its payload. -/

namespace Sys2Proof.Laws.FrameShape

/-- The shape of an instruction's encoding, under any configuration. -/
def Statement (i : Instr) : Prop :=
  ∀ cfg : Config, (encode cfg i)[0]? = some cfg.header ∧ (encode cfg i)[1]? = some (i.code cfg) ∧
    (encode cfg i).getLast? = some cfg.footer ∧
    (encode cfg i).length = (i.payload cfg).length + 5

/-- Every encoding is a frame, whatever the instruction. -/
theorem of_frame (i : Instr) : Statement i := fun cfg =>
  ⟨rfl, rfl, getLast?_frame cfg _ _, length_encode cfg i⟩

theorem netConnect (name : List Byte) : Statement (.netConnect name) := of_frame _
theorem netPassword (password : List Byte) : Statement (.netPassword password) := of_frame _
theorem netConfirm (ignored : List Byte) : Statement (.netConfirm ignored) := of_frame _
theorem fileStatus (ignored : List Byte) : Statement (.fileStatus ignored) := of_frame _
theorem xferStart (payload : List Byte) : Statement (.xferStart payload) := of_frame _
theorem xferEnd (ignored : List Byte) : Statement (.xferEnd ignored) := of_frame _
theorem paramA (ignored : List Byte) : Statement (.paramA ignored) := of_frame _
theorem paramB (ignored : List Byte) : Statement (.paramB ignored) := of_frame _
theorem unknown (code : Byte) (ignored : List Byte) : Statement (.unknown code ignored) := of_frame _
theorem success (code : Byte) : Statement (.success code) := of_frame _
theorem errLen (code : Byte) : Statement (.errLen code) := of_frame _
theorem errCksum (code : Byte) : Statement (.errCksum code) := of_frame _
theorem joinStatus (status : Byte) : Statement (.joinStatus status) := of_frame _
theorem fileStatusReply (record : List Byte) : Statement (.fileStatusReply record) := of_frame _

end Sys2Proof.Laws.FrameShape
end

