-- ==== Sys2Proof/Laws/Step.lean ====
section
/-! SUPPORT. What one step can do, said once: which turn it serves, and for a receive byte what FEED
answers and what is executed. -/

namespace Sys2Proof.Machine

/-- A state whose next turn has been dropped from the schedule. -/
abbrev turnTaken (s : State) : State := { s with schedule := s.schedule.tail }

/-- A state from which the next receive byte has been taken for an ENGINE_STEP. -/
abbrev byteTaken (s : State) (rest : List Byte) : State :=
  { s with rxStream := rest, schedule := s.schedule.tail }

/-- The three kinds of step: a wait, an ENGINE_STEP, a WRITECHUNK (R330). -/
theorem step_cases (s : State) :
    (nextTurn s = .command ∧ s.rxStream = [] ∧ step s = .next (turnTaken s)) ∨
    (∃ b rest, nextTurn s = .command ∧ s.rxStream = b :: rest ∧
      step s = engineStep b (byteTaken s rest)) ∨
    (∃ n, nextTurn s = .bulk n ∧ step s = .next (writeChunk n (turnTaken s))) := by
  unfold step takeTurn serve
  cases ht : nextTurn s with
  | command =>
    cases hr : s.rxStream with
    | nil => exact .inl ⟨rfl, rfl, by simp [hr]⟩
    | cons b rest => exact .inr (.inl ⟨b, rest, rfl, rfl, by simp⟩)
  | bulk n => exact .inr (.inr ⟨n, rfl, rfl⟩)

/-- A completed frame, from any state: what FEED saw and what it leaves. -/
theorem feed_complete {b : Byte} {s : State} {raw : List Byte} (h : (feed b s).1 = .complete raw) :
    s.writeIndex ≠ 0 ∧ s.writeIndex < s.cfg.rxCapacity ∧
      (s.writeIndex = 2 → b.toNat + s.cfg.overhead ≤ s.cfg.rxCapacity) ∧
      lengthAfter b s ≠ 0 ∧ s.writeIndex + 1 = lengthAfter b s ∧
      raw = s.rxBuf.slice s.writeIndex ++ [b] ∧ (feed b s).2 = (s.append b).resetReassembly := by
  rcases feed_cases b s with h' | h' | h' | h' | h' | h'
  · rw [h'.2.2] at h; cases h
  · rw [h'.2.2] at h; cases h
  · rw [h'.2.2] at h; cases h
  · rw [h'.2.2.2] at h; cases h
  · obtain ⟨h0, hlt, hb, hl, he, hf⟩ := h'
    rw [hf] at h ⊢
    cases h
    exact ⟨h0, hlt, hb, hl, he, rfl, rfl⟩
  · rw [h'.2.2.2.2] at h; cases h

/-- An ENGINE_STEP either completes a frame, which is then run, or is its FEED alone (R170). -/
theorem engineStep_cases (b : Byte) (s : State) :
    (∃ raw, (feed b s).1 = .complete raw ∧
      engineStep b s = runFrame raw (s.append b).resetReassembly) ∨
    ((∀ raw, (feed b s).1 ≠ .complete raw) ∧ engineStep b s = .next (feed b s).2) := by
  unfold engineStep
  rcases h : feed b s with ⟨ev, t⟩
  cases ev with
  | complete raw =>
    have hc : (feed b s).1 = .complete raw := by rw [h]
    refine .inl ⟨raw, rfl, ?_⟩
    have ht := (feed_complete hc).2.2.2.2.2.2
    rw [h] at ht
    rw [← ht]
    rfl
  | none => exact .inr ⟨fun _ => by simp, rfl⟩
  | overflow => exact .inr ⟨fun _ => by simp, rfl⟩
  | lengthTooLarge => exact .inr ⟨fun _ => by simp, rfl⟩

/-- What is run for a candidate frame: an instruction, or the drop of a malformed frame. -/
theorem runFrame_cases (raw : List Byte) (s : State) :
    (∃ i, instrOfFrame s.cfg raw = some i ∧ runFrame raw s = exec i s) ∨
    (instrOfFrame s.cfg raw = none ∧ runFrame raw s = .next (s.emit .malformed)) := by
  unfold runFrame
  cases h : instrOfFrame s.cfg raw with
  | some i => exact .inl ⟨i, rfl, rfl⟩
  | none => exact .inr ⟨rfl, rfl⟩

/-- What `nextInstr` names, in terms of FEED. -/
theorem nextInstr_command {s : State} {b : Byte} {rest : List Byte}
    (ht : nextTurn s = .command) (hr : s.rxStream = b :: rest) {raw : List Byte}
    (hf : (feed b (byteTaken s rest)).1 = .complete raw) :
    nextInstr s = instrOfFrame s.cfg raw := by
  unfold nextInstr
  rw [ht, hr]
  simp only [hf]

/-- `runFor` is the host's run of this machine. -/
theorem runFor_eq_core_run (k : Nat) : ∀ s : State, runFor k s = Host.Core.run Sys2Proof.core k s := by
  induction k with
  | zero => intro s; rfl
  | succ k ih =>
    intro s
    cases h : step s <;> have h' : Sys2Proof.core.step s = _ := h <;>
      simp only [runFor, Host.Core.run, h, h', ih] <;> rfl

/-- A run goes on from the state its first step answers. -/
theorem runFor_succ_next {k : Nat} {s t : State} (h : step s = .next t) :
    runFor (k + 1) s = runFor k t := by
  simp only [runFor, h]

/-- A run of one step is that step. -/
theorem runFor_one (s : State) : runFor 1 s = step s := by
  unfold runFor
  cases step s <;> rfl

end Sys2Proof.Machine
end

