-- ==== Sys2Proof/Tests/Slice0.lean ====
section
/-! SUPPORT. Tests on small inputs, their expected results from the vectors of 95_test_vectors.md (V1
to V64, E1 to E3, programs 1 to 5) or computed by hand from the rules; and a witness for the
hypotheses of each obligation. -/

namespace Sys2Proof.Tests

open Sys2Proof.Machine

/-! ### Helpers -/

/-- The next state's part under test, none for a fault or a refusal. -/
def peek {α : Type} (part : State → α) : Host.Outcome State Fault Refusal → Option α
  | .next t => some (part t)
  | .fault _ => none
  | .refused _ => none

/-- A fresh engine with one join status, one `openWritable` and two counts to come. -/
def fresh (joins : List Byte) (opens : List (Option Handle)) (counts : List Count) : State :=
  State.initial .standard [] [] [] joins opens counts

/-- The engine about to receive the last byte of a frame. -/
def pending (s : State) (bytes : List Byte) : State := s.withPendingFrame bytes

/-- "a.bmp" -/
def aBmp : List Byte := [0x61, 0x2E, 0x62, 0x6D, 0x70]

/-- "loom" -/
def loom : List Byte := [0x6C, 0x6F, 0x6F, 0x6D]

/-- The request of E2: XFER_START(`01` "a.bmp"). -/
def startFrame : List Byte := [0xA5, 0x14, 0x06, 0x01, 0x61, 0x2E, 0x62, 0x6D, 0x70, 0xCF, 0x5A]

/-- An engine in use: a session on "a.bmp" with handle 7, opened by a frame that was answered; then
three bytes of a FILE_STATUS frame; two bulk bytes waiting. -/
def busy : State :=
  { fresh [0x03] [some 8, none] [320, 7] with
    rxBuf := [(0, 0xA5), (1, 0x13), (2, 0x00)], writeIndex := 3, expectedLength := 5
    pendingName := loom
    session := some ⟨.border, aBmp, 7⟩
    lastNameBorder := fieldOf .standard aBmp
    txBuf := Memory.store [] 0 [0xA5, 0x14, 0x01, 0x00, 0x00, 0x5A]
    rxStream := [0x00, 0x5A], bulkStream := [0xDE, 0xAD]
    transmitted := [[0xA5, 0x14, 0x01, 0x00, 0x00, 0x5A]]
    calls := [.openWritable aBmp (some 7)] }

/-- The fresh engine with `writeIndex` and `expectedLength` set, and three cells written. -/
def framing (wi el : Nat) : State :=
  { fresh [] [] [] with
    rxBuf := [(0, 0xA5), (1, 0x10), (2, 0x00)], writeIndex := wi, expectedLength := el }

/-! ### WellFormed: each check refuses an ill-formed term -/

/-- 28 payload bytes: one more than a received frame carries (R85). -/
def tooLong : List Byte := List.replicate 28 0x41

theorem test_wf_requests_too_long :
    [Instr.netConnect tooLong, .netPassword tooLong, .netConfirm tooLong, .fileStatus tooLong,
      .xferStart tooLong, .xferEnd tooLong, .paramA tooLong, .paramB tooLong,
      .unknown 0x20 tooLong].map (Instr.wellFormed .standard) = List.replicate 9 false := by decide
theorem test_wf_unknown_assigned_code : (Instr.unknown 0x17 []).wellFormed .standard = false := by
  decide
theorem test_wf_success_code : (Instr.success 0x12).wellFormed .standard = false := by decide
theorem test_wf_record_short :
    (Instr.fileStatusReply (List.replicate 43 0)).wellFormed .standard = false := by decide
theorem test_wf_record_long :
    (Instr.fileStatusReply (List.replicate 48 0)).wellFormed .standard = false := by decide
theorem test_wf_record_body_progress :
    (Instr.fileStatusReply ((List.replicate 44 0).set 7 1)).wellFormed .standard = false := by decide
theorem test_wf_record_border_progress :
    (Instr.fileStatusReply ((List.replicate 44 0).set 28 1)).wellFormed .standard = false := by decide
theorem test_wf_record_terminator :
    (Instr.fileStatusReply ((List.replicate 44 0).set 23 0x41)).wellFormed .standard = false := by
  decide
theorem test_wf_longest_request :
    (Instr.netConnect (List.replicate 27 0x41)).wellFormed .standard = true := by decide
theorem test_wf_reply : (Instr.fileStatusReply (List.replicate 44 0)).wellFormed .standard = true := by
  decide

/-! ### Decode: a written frame for every constructor -/

/-- Program 1. -/
theorem test_decode_netConnect :
    decode .standard [0xA5, 0x10, 0x04, 0x6C, 0x6F, 0x6F, 0x6D, 0xB7, 0x5A] =
      .ok (.netConnect loom) := rfl
/-- Program 1. -/
theorem test_decode_netPassword :
    decode .standard [0xA5, 0x11, 0x02, 0x70, 0x77, 0xE7, 0x5A] = .ok (.netPassword [0x70, 0x77]) :=
  rfl
/-- V50. -/
theorem test_decode_netConfirm :
    decode .standard [0xA5, 0x12, 0x02, 0xAA, 0xBB, 0x65, 0x5A] = .ok (.netConfirm [0xAA, 0xBB]) :=
  rfl
/-- V6. -/
theorem test_decode_fileStatus :
    decode .standard [0xA5, 0x13, 0x00, 0x00, 0x5A] = .ok (.fileStatus []) := rfl
/-- E2. -/
theorem test_decode_xferStart : decode .standard startFrame = .ok (.xferStart (0x01 :: aBmp)) := rfl
/-- V51. -/
theorem test_decode_xferEnd :
    decode .standard [0xA5, 0x15, 0x00, 0x00, 0x5A] = .ok (.xferEnd []) := rfl
/-- V44. -/
theorem test_decode_paramA :
    decode .standard [0xA5, 0x16, 0x01, 0x05, 0x05, 0x5A] = .ok (.paramA [0x05]) := rfl
/-- V45. -/
theorem test_decode_paramB :
    decode .standard [0xA5, 0x17, 0x00, 0x00, 0x5A] = .ok (.paramB []) := rfl
/-- V43, V29d: all eight bits of the command byte are compared. -/
theorem test_decode_unknown :
    decode .standard [0xA5, 0xFF, 0x00, 0x00, 0x5A] = .ok (.unknown 0xFF []) ∧
    decode .standard [0xA5, 0x00, 0x00, 0x00, 0x5A] = .ok (.unknown 0x00 []) := ⟨rfl, rfl⟩
/-- V30. -/
theorem test_decode_success :
    decodeSent .standard [0xA5, 0x10, 0x01, 0x00, 0x00, 0x5A] = .ok [.success 0x10] := rfl
/-- V31. -/
theorem test_decode_errLen :
    decodeSent .standard [0xA5, 0x13, 0x01, 0x01, 0x01, 0x5A] = .ok [.errLen 0x13] := rfl
/-- V32, V46. -/
theorem test_decode_errCksum :
    decodeSent .standard [0xA5, 0x13, 0x01, 0x02, 0x02, 0x5A] = .ok [.errCksum 0x13] ∧
    decodeSent .standard [0xA5, 0x99, 0x01, 0x02, 0x02, 0x5A] = .ok [.errCksum 0x99] := ⟨rfl, rfl⟩
/-- V34; V49: the bytes of an error form (R95). -/
theorem test_decode_joinStatus :
    decodeSent .standard [0xA5, 0x12, 0x01, 0xFF, 0xFF, 0x5A] = .ok [.joinStatus 0xFF] ∧
    decodeSent .standard [0xA5, 0x12, 0x01, 0x02, 0x02, 0x5A] =
      .ok [.errCksum 0x12, .joinStatus 0x02] := ⟨rfl, rfl⟩
/-- E3. -/
theorem test_decode_fileStatusReply :
    decodeSent .standard ([0xA5, 0x13, 0x2C] ++ List.replicate 44 0x00 ++ [0x00, 0x5A]) =
      .ok [.fileStatusReply (List.replicate 44 0x00)] := rfl

/-- V20, V21, V24, V29a, V29b: structure first. -/
theorem test_validate_malformed :
    validate .standard [] = .error .malformed ∧
    validate .standard [0xA5, 0x10, 0x00, 0x5A] = .error .malformed ∧
    validate .standard [0xA5, 0x10, 0x02, 0x41, 0x41, 0x5B] = .error .malformed ∧
    validate .standard [0x5A, 0x13, 0x00, 0x00, 0x5A] = .error .malformed ∧
    validate .standard [0xA5, 0x13, 0x00, 0x00, 0x5B] = .error .malformed := ⟨rfl, rfl, rfl, rfl, rfl⟩
/-- V22, V23, V25: then the length. -/
theorem test_validate_length :
    validate .standard [0xA5, 0x13, 0x01, 0x5A, 0x5A] = .error (.lengthMismatch 0x13) ∧
    validate .standard [0xA5, 0x10, 0x00, 0x41, 0x41, 0x5A] = .error (.lengthMismatch 0x10) ∧
    validate .standard [0xA5, 0x10, 0x02, 0x41, 0x41, 0x5A] = .error (.lengthMismatch 0x10) :=
  ⟨rfl, rfl, rfl⟩
/-- V28, V29, V29e: then the checksum, its carry discarded. -/
theorem test_validate_checksum :
    validate .standard [0xA5, 0x10, 0x03, 0xFF, 0xFF, 0x02, 0x00, 0x5A] =
      .ok (0x10, [0xFF, 0xFF, 0x02]) ∧
    validate .standard [0xA5, 0x10, 0x01, 0x41, 0x42, 0x5A] = .error (.checksumFailed 0x10) ∧
    validate .standard [0xA5, 0x13, 0x00, 0x13, 0x5A] = .error (.checksumFailed 0x13) :=
  ⟨rfl, rfl, rfl⟩
/-- V35, V36. -/
theorem test_encode :
    frame .standard 0x15 [] = [0xA5, 0x15, 0x00, 0x00, 0x5A] ∧
    frame .standard 0x10 [0x80, 0x80] = [0xA5, 0x10, 0x02, 0x80, 0x80, 0x00, 0x5A] := ⟨rfl, rfl⟩

/-- The table's words for FILE_STATUS and UNKNOWN (R106). -/
theorem test_table_words :
    decodeTableWord 16 0xA513 = some (.fileStatus []) ∧
    decodeTableWord 16 0xA500 = some (.unknown 0x00 []) ∧
    decodeTableWord 16 0x5A13 = none := ⟨rfl, rfl, rfl⟩
/-- A table word placed after reset is what the next step executes. -/
theorem test_fetch_word :
    nextInstr (State.reset.withFetchWord 16 0xA515) = some (.xferEnd []) ∧
    peek State.transmitted (step (State.reset.withFetchWord 16 0xA515)) =
      some [[0xA5, 0x15, 0x01, 0x00, 0x00, 0x5A]] := by decide

/-! ### The framer -/

/-- V5: after `A5 10 1B`. -/
theorem test_feed_longest :
    (feedAll [0xA5, 0x10, 0x1B] State.reset).2.expectedLength = 32 := by decide
/-- V3, V4: 28 and 255 are too large, with no wrap; the event is raised (R264). -/
theorem test_feed_too_large :
    (feedAll [0xA5, 0x10, 0x1C] State.reset).1 = [.none, .none, .lengthTooLarge] ∧
    (feedAll [0xA5, 0x11, 0xFF] State.reset).1 = [.none, .none, .lengthTooLarge] ∧
    (feedAll [0xA5, 0x10, 0x1C] State.reset).2.events = [.lengthTooLarge] := by decide
/-- V11: header and footer bytes inside a payload are data. -/
theorem test_feed_data :
    (feedAll [0xA5, 0x10, 0x03, 0xA5, 0x5A, 0xA5, 0xA4, 0x5A] State.reset).1 =
      List.replicate 7 .none ++ [.complete [0xA5, 0x10, 0x03, 0xA5, 0x5A, 0xA5, 0xA4, 0x5A]] := by
  decide
/-- V9, V17: a false header swallows the length byte. -/
theorem test_feed_false_header :
    (feedAll [0xA5, 0x00, 0xA5, 0x13, 0x00, 0x00, 0x5A] State.reset).1 =
      [.none, .none, .lengthTooLarge, .none, .none, .none, .none] := by decide
/-- V14: the byte is not stored; the event is raised (R263). -/
theorem test_feed_overflow :
    (feed 0x11 (framing 32 32)).1 = .overflow ∧ (feed 0x11 (framing 32 32)).2.writeIndex = 0 ∧
    (feed 0x11 (framing 32 32)).2.rxBuf = (framing 32 32).rxBuf ∧
    (feed 0x11 (framing 32 32)).2.events = [.overflow] := by decide

/-! ### One step each -/

/-- V40; V47: an empty name is stored too. -/
theorem test_netConnect :
    peek (fun t => (t.pendingName, t.transmitted))
      (step (pending (fresh [] [] []) [0xA5, 0x10, 0x01, 0x41, 0x41, 0x5A])) =
        some ([0x41], [[0xA5, 0x10, 0x01, 0x00, 0x00, 0x5A]]) ∧
    peek State.pendingName (exec (.netConnect []) busy) = some [] := by decide
/-- V48, program 1: the stored name and the password, in that order; the name stays. -/
theorem test_netPassword :
    peek State.calls (step (pending (fresh [] [] []) [0xA5, 0x11, 0x00, 0x00, 0x5A])) =
      some [.initiateJoin [] []] ∧
    peek (fun t => (t.calls.drop 1, t.pendingName)) (exec (.netPassword [0x70, 0x77]) busy) =
      some ([.initiateJoin loom [0x70, 0x77]], loom) := by decide
/-- V50: the payload is ignored; V49: the answer is sent verbatim. -/
theorem test_netConfirm :
    peek State.transmitted
      (step (pending (fresh [0x07] [] []) [0xA5, 0x12, 0x02, 0xAA, 0xBB, 0x65, 0x5A])) =
        some [[0xA5, 0x12, 0x01, 0x07, 0x07, 0x5A]] ∧
    peek State.transmitted (exec (.netConfirm []) (fresh [0x02] [] [])) =
      some [[0xA5, 0x12, 0x01, 0x02, 0x02, 0x5A]] := by decide
/-- E3. -/
theorem test_fileStatus_none :
    peek (fun t => (t.transmitted, t.calls))
      (step (pending (fresh [] [] [5, 5]) [0xA5, 0x13, 0x00, 0x00, 0x5A])) =
        some ([[0xA5, 0x13, 0x2C] ++ List.replicate 44 0x00 ++ [0x00, 0x5A]], []) := by decide
/-- Program 2, step 3: no call for the empty body name; 320 little-endian; checksum `0F`. -/
theorem test_fileStatus_border :
    peek (fun t => (t.transmitted.drop 1, t.calls.drop 1)) (exec (.fileStatus []) busy) =
      some ([[0xA5, 0x13, 0x2C] ++ List.replicate 24 0x00 ++ [0x40, 0x01, 0, 0, 0, 0, 0, 0] ++
          aBmp ++ List.replicate 7 0x00 ++ [0x0F, 0x5A]],
        [.unitCount .border (aBmp ++ List.replicate 11 0x00) 320]) := by decide
/-- E2. -/
theorem test_xferStart :
    peek (fun t => (t.session, t.lastNameBorder, t.transmitted))
      (step (pending (fresh [] [some 9] []) startFrame)) =
        some (some ⟨.border, aBmp, 9⟩, aBmp ++ List.replicate 11 0x00,
          [[0xA5, 0x14, 0x01, 0x00, 0x00, 0x5A]]) := by decide
/-- V53, program 5 step 2: during a session the old handle is closed first; a failed open is silent. -/
theorem test_xferStart_again :
    peek (fun t => (t.calls.drop 1, t.session.map (·.handle))) (exec (.xferStart [0x00, 0x41]) busy) =
      some ([.close 7, .openWritable [0x41] (some 8)], some 8) ∧
    peek (fun t => (t.transmitted, t.events, t.lastNameBorder))
      (exec (.xferStart [0x01, 0x41]) (fresh [] [none] [])) =
        some ([], [.storageOpenFailure 0x14], List.replicate 16 0x00) := by decide
/-- V51; program 2 step 4. -/
theorem test_xferEnd :
    peek (fun t => (t.calls, t.transmitted))
      (step (pending (fresh [] [] []) [0xA5, 0x15, 0x00, 0x00, 0x5A])) =
        some ([], [[0xA5, 0x15, 0x01, 0x00, 0x00, 0x5A]]) ∧
    peek (fun t => (t.calls.drop 1, t.session, t.lastNameBorder)) (exec (.xferEnd []) busy) =
      some ([.close 7], none, aBmp ++ List.replicate 11 0x00) := by decide
/-- V44. -/
theorem test_paramA :
    peek (fun t => (t.events, t.transmitted))
      (step (pending (fresh [] [] []) [0xA5, 0x16, 0x01, 0x05, 0x05, 0x5A])) =
        some ([.unknownCommand 0x16], []) := by decide
/-- V45. -/
theorem test_paramB :
    peek (fun t => (t.events, t.transmitted))
      (step (pending (fresh [] [] []) [0xA5, 0x17, 0x00, 0x00, 0x5A])) =
        some ([.unknownCommand 0x17], []) := by decide
/-- V42. -/
theorem test_unknown :
    peek (fun t => (t.events, t.transmitted))
      (step (pending (fresh [] [] []) [0xA5, 0x20, 0x00, 0x00, 0x5A])) =
        some ([.unknownCommand 0x20], []) := by decide
/-- V30. -/
theorem test_success :
    peek State.transmitted (exec (.success 0x10) (fresh [] [] [])) =
      some [[0xA5, 0x10, 0x01, 0x00, 0x00, 0x5A]] := by decide
/-- The response to V22. -/
theorem test_errLen :
    peek (fun t => (t.transmitted, t.events))
      (runFrame [0xA5, 0x13, 0x01, 0x5A, 0x5A] (fresh [] [] [])) =
        some ([[0xA5, 0x13, 0x01, 0x01, 0x01, 0x5A]], [.lengthMismatch 0x13]) := by decide
/-- E1, V46: an unassigned code is echoed too. -/
theorem test_errCksum :
    peek (fun t => (t.transmitted, t.events))
      (step (pending (fresh [] [] []) [0xA5, 0x13, 0x00, 0x13, 0x5A])) =
        some ([[0xA5, 0x13, 0x01, 0x02, 0x02, 0x5A]], [.checksumFailed 0x13]) ∧
    peek (fun t => (t.transmitted, t.events))
      (step (pending (fresh [] [] []) [0xA5, 0x99, 0x01, 0x01, 0x02, 0x5A])) =
        some ([[0xA5, 0x99, 0x01, 0x02, 0x02, 0x5A]], [.checksumFailed 0x99]) := by decide
/-- V33. -/
theorem test_joinStatus :
    peek State.transmitted (exec (.joinStatus 0x03) (fresh [] [] [])) =
      some [[0xA5, 0x12, 0x01, 0x03, 0x03, 0x5A]] := by decide
/-- V38 and the bound of R233: 59 bytes are sent, 60 are not. -/
theorem test_fileStatusReply :
    peek (fun t => t.transmitted.map List.length)
      (exec (.fileStatusReply (List.replicate 59 0x00)) (fresh [] [] [])) = some [64] ∧
    exec (.fileStatusReply (List.replicate 60 0x00)) (fresh [] [] []) =
      .fault (.replyTooLong 60) := ⟨by decide, rfl⟩
/-- V41: a malformed frame is dropped with an event. -/
theorem test_malformed :
    peek (fun t => (t.events, t.transmitted, t.writeIndex))
      (step (pending (fresh [] [] []) [0xA5, 0x12, 0x00, 0x00, 0x5B])) =
        some ([.malformed], [], 0) := by decide

/-- V60, V61: a WRITECHUNK without and with a session. -/
theorem test_writeChunk :
    peek (fun t => (t.calls, t.bulkStream))
      (step { fresh [] [] [] with bulkStream := [0xDE, 0xAD], schedule := [.bulk 2] }) =
        some ([], []) ∧
    peek (fun t => (t.calls.drop 1, t.bulkStream)) (step { busy with schedule := [.bulk 2] }) =
      some ([.write 7 [0xDE, 0xAD]], []) := by decide
/-- V63, V64. -/
theorem test_finalize :
    ((finalize busy).calls.drop 1, (finalize busy).session, (finalize busy).lastNameBorder) =
      ([.close 7], none, aBmp ++ List.replicate 11 0x00) ∧
    (finalize (fresh [] [] [])).calls = [] := by decide
/-- The command channel is served before the bulk channel, and `bulk_ready` is then 0 (R42). -/
theorem test_port_order :
    (nextTurn busy = .command ∧ busy.bulkValid = true ∧ busy.bulkReady = false) ∧
    nextTurn { busy with rxStream := [] } = .bulk 1 := by decide
/-- A bulk turn while receive bytes remain: none is offered, and the bulk bytes are taken (log 12). -/
theorem test_port_bulk_turn :
    { busy with schedule := [.bulk 2] }.rxValid = false ∧
    { busy with schedule := [.bulk 2] }.bulkReady = true ∧
    peek (fun t => (t.rxStream, t.bulkStream)) (step { busy with schedule := [.bulk 2] }) =
      some ([0x00, 0x5A], []) := by decide
/-- The handler's reply for V49, and none for E1, where no handler runs (R43). -/
theorem test_handler_reply :
    peek (handlerReply (pending (fresh [0x02] [] []) [0xA5, 0x12, 0x00, 0x00, 0x5A]))
      (step (pending (fresh [0x02] [] []) [0xA5, 0x12, 0x00, 0x00, 0x5A])) = some (some [0x02]) ∧
    peek (handlerReply (pending (fresh [] [] []) [0xA5, 0x13, 0x00, 0x13, 0x5A]))
      (step (pending (fresh [] [] []) [0xA5, 0x13, 0x00, 0x13, 0x5A])) = some none := by decide
/-- The event port after V42: `ev_unknown`, with the command byte (R45). -/
theorem test_event_port :
    peek (eventPort (fresh [] [] [])) (exec (.unknown 0x20 []) (fresh [] [] [])) =
      some ⟨0b0100000, some 0x20⟩ := by decide

/-! ### Witnesses: for each obligation with hypotheses, values that meet them, clause by clause -/

/-- The engine in use has the whole invariant. -/
theorem busy_inv : EngineInv busy where
  legal := standard_legal
  reassembly := by constructor <;> decide
  buffers := by constructor <;> decide
  shapes := by
    constructor
    · decide
    · intro active h
      rw [← Option.some.inj h]
      decide
    · constructor <;> decide
    · constructor <;> decide
  session := rfl
  sent := by
    intro f h
    exact ⟨.success 0x14, rfl, by decide, List.mem_singleton.mp h⟩

/-- A frame in flight, one byte short. -/
def almost : State := { busy with rxBuf := busy.rxBuf.write 3 0x00, writeIndex := 4, rxStream := [0x5A] }

theorem almost_reassembly : ReassemblyInv almost := by constructor <;> decide
theorem framing_reassembly (wi el : Nat) (h : (wi, el) ∈ [(0, 0), (1, 0), (2, 0), (3, 5), (4, 5)]) :
    ReassemblyInv (framing wi el) := by
  simp only [List.mem_cons, List.not_mem_nil, or_false, Prod.mk.injEq] at h
  rcases h with ⟨rfl, rfl⟩ | ⟨rfl, rfl⟩ | ⟨rfl, rfl⟩ | ⟨rfl, rfl⟩ | ⟨rfl, rfl⟩ <;>
    constructor <;> decide

/-- The longest name a received frame carries. -/
def longest : List Byte := List.replicate 27 0xFF

theorem witness_DecodeEncodeRequests :
    Config.standard.Legal ∧ (Instr.netPassword longest).isRequest = true ∧
    (Instr.netPassword longest).wellFormed .standard = true ∧
    (Instr.unknown 0x18 []).isRequest = true ∧ (Instr.unknown 0x18 []).wellFormed .standard = true :=
  ⟨standard_legal, by decide⟩
/-- V7 for the length clause. -/
theorem witness_DecodedBytesAreTheRequestsFrame :
    Config.standard.Legal ∧
    decode .standard ([0xA5, 0x11, 0x1B] ++ longest ++ [0xE5, 0x5A]) = .ok (.netPassword longest) ∧
    ([0xA5, 0x11, 0x1B] ++ longest ++ [0xE5, 0x5A]).length = Config.standard.rxCapacity :=
  ⟨standard_legal, rfl, rfl⟩
theorem witness_SentFormsAreReadBack :
    Config.standard.Legal ∧ (Instr.joinStatus 0x02).isRequest = false ∧
    (Instr.joinStatus 0x02).wellFormed .standard = true ∧ (Instr.success 0x15).isRequest = false ∧
    (Instr.success 0x15).wellFormed .standard = true := ⟨standard_legal, by decide⟩
theorem witness_ValidateReadsBackEveryFrame :
    Config.standard.Legal ∧ (List.replicate 255 (0xFF : Byte)).length ≤ 255 ∧
    Config.standard.fitsRx longest.length ∧ State.reset.cfg = .standard ∧ State.reset.seeking :=
  ⟨standard_legal, by rw [List.length_replicate], by decide⟩
theorem witness_EncodedFrameLayout :
    Config.standard.Legal ∧ Config.standard.fitsTx (List.replicate 59 (0x01 : Byte)).length ∧
    Config.standard.fitsTx ([] : List Byte).length := ⟨standard_legal, by decide⟩
theorem witness_OpcodeRowsSelectTheRequest :
    selectRow 0xA5 0x17 = some "PARAM_B" ∧ selectRow 0xA5 0x18 = some "UNKNOWN" ∧
    selectRow 0xA4 0x17 = none := by decide
/-- V22, V29, V26; V21 for the first clause. -/
theorem witness_ValidateMakesThreeChecksInOrder :
    Config.standard.Legal ∧ ¬(5 ≤ ([0xA5, 0x10, 0x00, 0x5A] : List Byte).length) ∧
    ([0xA5, 0x13, 0x01, 0x5A, 0x5A] : List Byte).head? = some Config.standard.header ∧
    ([0xA5, 0x13, 0x01, 0x5A, 0x5A] : List Byte).getLast? = some Config.standard.footer ∧
    (0x01 : Byte).toNat ≠ ([0xA5, 0x13, 0x01, 0x5A, 0x5A] : List Byte).length - 5 ∧
    (0x01 : Byte).toNat = ([0xA5, 0x10, 0x01, 0x41, 0x42, 0x5A] : List Byte).length - 5 ∧
    ([0xA5, 0x10, 0x01, 0x41, 0x42, 0x5A] : List Byte)[4]? ≠ some (sum8 [0x41]) ∧
    ([0xA5, 0x10, 0x02, 0x01, 0x02, 0x03, 0x5A] : List Byte)[5]? = some (sum8 [0x01, 0x02]) :=
  ⟨standard_legal, by decide⟩
/-- V26 and V27. -/
theorem witness_ChecksumIgnoresByteOrder :
    Config.standard.Legal ∧ ([0x01, 0x02] : List Byte).length ≤ 255 ∧
    ([0x01, 0x02] : List Byte).Perm [0x02, 0x01] := ⟨standard_legal, by decide, List.Perm.swap ..⟩
theorem witness_SeekingDiscardsOrStartsAFrame :
    State.reset.writeIndex = 0 ∧ (0x5A : Byte) ≠ State.reset.cfg.header ∧
    (0xA5 : Byte) = State.reset.cfg.header := by decide
/-- One state for each row of the table, at the boundary where it has one. -/
theorem witness_FeedFollowsTheTransitionTable :
    Config.standard.Legal ∧ (framing 32 32).cfg.rxCapacity ≤ (framing 32 32).writeIndex ∧
    ReassemblyInv (framing 0 0) ∧ ReassemblyInv (framing 1 0) ∧ ReassemblyInv (framing 2 0) ∧
    ReassemblyInv (framing 3 5) ∧ ReassemblyInv (framing 4 5) ∧
    Config.standard.rxCapacity < (28 : Byte).toNat + 5 ∧
    (27 : Byte).toNat + 5 ≤ Config.standard.rxCapacity ∧ 4 + 1 = (framing 4 5).expectedLength ∧
    3 + 1 ≠ (framing 3 5).expectedLength :=
  ⟨standard_legal, by decide, framing_reassembly _ _ (by decide), framing_reassembly _ _ (by decide),
    framing_reassembly _ _ (by decide), framing_reassembly _ _ (by decide),
    framing_reassembly _ _ (by decide), by decide⟩
/-- A byte stored, one discarded, one refused. -/
theorem witness_FeedFrame :
    (1 : Nat) ≠ State.reset.writeIndex ∧
    ((feed 0xA5 State.reset).1 ≠ .overflow ∧ ¬(State.reset.writeIndex = 0 ∧
      (0xA5 : Byte) ≠ State.reset.cfg.header)) ∧
    (State.reset.writeIndex = 0 ∧ (0x00 : Byte) ≠ State.reset.cfg.header) ∧
    (feed 0x11 (framing 32 32)).1 = .overflow := by decide
theorem witness_CompletedFramesHaveTheDeclaredShape :
    almost.cfg.Legal ∧ ReassemblyInv almost ∧
    (feed 0x5A almost).1 = .complete [0xA5, 0x13, 0x00, 0x00, 0x5A] :=
  ⟨standard_legal, almost_reassembly, by decide⟩
/-- With a footer, and with another last byte. -/
theorem witness_LengthMismatchNeverBehindTheFramer :
    almost.cfg.Legal ∧ ReassemblyInv almost ∧
    (feed 0x5A almost).1 = .complete [0xA5, 0x13, 0x00, 0x00, 0x5A] ∧
    (feed 0x5B almost).1 = .complete [0xA5, 0x13, 0x00, 0x00, 0x5B] :=
  ⟨standard_legal, almost_reassembly, by decide⟩
/-- A start state with a whole frame to come. -/
def starting : State :=
  State.initial .standard startFrame [0xDE, 0xAD] [] [] [some 9] []
theorem starting_start : StartState starting :=
  ⟨.standard, startFrame, [0xDE, 0xAD], [], [], [some 9], [], standard_legal, rfl⟩
/-- Five steps into that run: five bytes of the frame are held. -/
theorem witness_OverflowIsUnreachable :
    ∃ t, Reachable t ∧ t.writeIndex = 5 := by
  refine ⟨{ starting with
    rxBuf := [(0, 0xA5), (1, 0x14), (2, 0x06), (3, 0x01), (4, 0x61)], writeIndex := 5
    expectedLength := 11, rxStream := startFrame.drop 5 }, ⟨starting, 5, starting_start, ?_⟩, rfl⟩
  rfl
/-- The garbage of V10. -/
theorem witness_HeaderFreeGarbageIsDiscarded :
    State.reset.seeking ∧
    ∀ b ∈ ([0x00, 0xFF, 0x5A, 0x13] : List Byte), b ≠ State.reset.cfg.header := by decide
/-- The flush of program 4, from a frame in flight. -/
theorem witness_HeaderFreeFlushEndsSeeking :
    almost.cfg.Legal ∧ ReassemblyInv almost ∧
    (List.replicate 31 (0x00 : Byte)).length = almost.cfg.rxCapacity - 1 ∧
    ∀ b ∈ List.replicate 31 (0x00 : Byte), b ≠ almost.cfg.header :=
  ⟨standard_legal, almost_reassembly, by decide⟩
/-- The length clause; and an Overflow that abandons 33 bytes, outside R25. -/
theorem witness_EveryReceivedByteIsAccountedFor :
    almost.cfg.Legal ∧ ReassemblyInv almost ∧
    .complete [0xA5, 0x13, 0x00, 0x00, 0x5A] ∈ (feedAll [0x5A] almost).1 ∧
    abandonedBytes [0x11] (framing 32 32) = 33 := ⟨standard_legal, almost_reassembly, by decide⟩
/-- A frame that decodes, one malformed, one with a wrong checksum; a byte that completes none. -/
theorem witness_StepRunsTheDecodedInstruction :
    nextTurn almost = .command ∧ almost.rxStream = [0x5A] ∧
    (feed 0x5A { almost with rxStream := [], schedule := almost.schedule.tail }).1 =
      .complete [0xA5, 0x13, 0x00, 0x00, 0x5A] ∧
    decode almost.cfg [0xA5, 0x13, 0x00, 0x00, 0x5A] = .ok (.fileStatus []) ∧
    decode almost.cfg [0xA5, 0x13, 0x00, 0x00, 0x5B] = .error .malformed ∧
    decode almost.cfg [0xA5, 0x13, 0x00, 0x13, 0x5A] = .error (.checksumFailed 0x13) ∧
    nextTurn busy = .command ∧ busy.rxStream = [0x00, 0x5A] ∧
    (feed 0x00 { busy with rxStream := [0x5A], schedule := busy.schedule.tail }).1 = .none :=
  ⟨rfl, rfl, by decide, rfl, rfl, rfl, rfl, rfl, by decide⟩
theorem witness_ReceivingAFrameExecutesItsRequest :
    starting.cfg.Legal ∧ starting.seeking ∧ starting.schedule = [] ∧
    (Instr.xferStart (0x01 :: aBmp)).isRequest = true ∧
    (Instr.xferStart (0x01 :: aBmp)).wellFormed starting.cfg = true ∧
    starting.rxStream = encode starting.cfg (.xferStart (0x01 :: aBmp)) ++ [] :=
  ⟨standard_legal, by decide⟩
theorem witness_RejectedFramesNeverReachDispatch :
    busy.cfg.Legal ∧ validate busy.cfg [0xA5, 0x13, 0x00, 0x13, 0x5A] = .error (.checksumFailed 0x13) :=
  ⟨standard_legal, rfl⟩
theorem witness_FailedChecksAreAnswered :
    busy.cfg.Legal ∧ validate busy.cfg [0xA5, 0x13, 0x00, 0x00, 0x5B] = .error .malformed ∧
    validate busy.cfg [0xA5, 0x13, 0x01, 0x5A, 0x5A] = .error (.lengthMismatch 0x13) ∧
    validate busy.cfg [0xA5, 0x13, 0x00, 0x13, 0x5A] = .error (.checksumFailed 0x13) :=
  ⟨standard_legal, rfl, rfl, rfl⟩
/-- Nothing left; and a receive byte left whose turn has not come, beside an empty chunk. -/
theorem witness_IdleEngineHoldsItsState :
    State.reset.rxStream = [] ∧ State.reset.bulkStream = [] ∧
    { busy with schedule := [.bulk 0] }.rxValid = false ∧
    { busy with schedule := [.bulk 0] }.bulkValid = false := by decide
/-- The legal configuration that NetConnect, NetPassword, NetConfirm, XferEnd and the sent forms ask
for, and no more. -/
theorem witness_legal : busy.cfg.Legal := standard_legal
theorem witness_CountIsZeroOrTheAnswer :
    busy.lastName .body = emptyName busy.cfg ∧ busy.lastName .border ≠ emptyName busy.cfg := by decide
theorem witness_FileStatusSendsTheRecord : busy.cfg.Legal ∧ ShapeInv busy :=
  ⟨standard_legal, busy_inv.shapes⟩
theorem witness_FileStatusWithNoTransferIsZeros :
    State.reset.cfg.Legal ∧ State.reset.lastNameBody = emptyName State.reset.cfg ∧
    State.reset.lastNameBorder = emptyName State.reset.cfg := ⟨standard_legal, by decide⟩
theorem witness_XferStartOpensATransfer :
    busy.cfg.Legal ∧ catOf busy.cfg 0x00 = some .body ∧ catOf busy.cfg 0x01 = some .border ∧
    busy.nextOpen = some 8 := ⟨standard_legal, by decide⟩
theorem witness_XferStartFailedOpenIsSilent :
    catOf busy.cfg 0x01 = some .border ∧ { busy with openAnswers := [none] }.nextOpen = none := by
  decide
/-- The configuration with the other policy. -/
def refusing : State := { busy with cfg := { Config.standard with startBadPayload := .refuse } }
theorem witness_XferStartUndefinedPayloadFollowsThePolicy :
    catOf busy.cfg 0x02 = none ∧ busy.cfg.startBadPayload = .hardware ∧
    catOf refusing.cfg 0xFF = none ∧ refusing.cfg.startBadPayload = .refuse := by decide
theorem witness_UnhandledCommandsOnlyRaiseAnEvent :
    0x0F ∉ busy.cfg.handledCodes ∧ 0x16 ∉ busy.cfg.handledCodes ∧ 0x18 ∉ busy.cfg.handledCodes := by
  decide
theorem witness_StatusReplyIsSentWithinTheBound :
    busy.cfg.Legal ∧ (List.replicate 59 (0x00 : Byte)).length + 5 ≤ busy.cfg.txCapacity ∧
    busy.cfg.txCapacity < (List.replicate 60 (0x00 : Byte)).length + 5 := ⟨standard_legal, by decide⟩
theorem witness_InstructionsLeaveTheFramerAlone :
    ∃ t, exec (.xferEnd []) busy = .next t ∧ t.session = none := ⟨_, rfl, rfl⟩
/-- A silent instruction, and one that sends. -/
theorem witness_SendingStagesExactlyTheFrame :
    (∃ t, exec (.paramA []) busy = .next t ∧ t.transmitted = busy.transmitted) ∧
    ∃ t, exec (.xferEnd []) busy = .next t ∧ t.txBuf.read? 1 = some 0x15 :=
  ⟨⟨_, rfl, rfl⟩, ⟨_, rfl, rfl⟩⟩
/-- An empty chunk, a chunk with no session, a scheduled one with a session, one in port order. -/
theorem witness_WriteChunkGoesToTheOpenHandle :
    nextTurn { busy with schedule := [.bulk 0] } = .bulk 0 ∧ busy.bulkStream.take 0 = [] ∧
    nextTurn { State.reset with bulkStream := [0xDE] } = .bulk 1 ∧ State.reset.session = none ∧
    nextTurn { busy with schedule := [.bulk 2] } = .bulk 2 ∧ busy.bulkStream.take 2 ≠ [] ∧
    busy.session = some ⟨.border, aBmp, 7⟩ ∧ busy.schedule = [] ∧
    nextTurn { busy with rxStream := [] } = .bulk 1 ∧ busy.bulkStream.take 1 ≠ [] := by decide
theorem witness_FinalizeClosesTheSession :
    busy.cfg.Legal ∧ busy.session.isSome = true := ⟨standard_legal, rfl⟩
theorem witness_StartStatesHaveTheInvariant : StartState starting := starting_start
/-- From a state in use, a step that executes no instruction; the next one executes FILE_STATUS. -/
theorem witness_EveryStepKeepsTheInvariant :
    EngineInv busy ∧ (∃ t, step busy = .next t ∧ t.writeIndex = 4) ∧
    ∃ t, runFor 2 busy = .next t ∧ t.transmitted.length = 2 :=
  ⟨busy_inv, ⟨_, rfl, rfl⟩, ⟨_, rfl, rfl⟩⟩
/-- A state whose step completes, and the frame whose execution the other policy refuses. -/
theorem witness_EveryStepCompletes :
    EngineInv busy ∧
    nextInstr (pending refusing [0xA5, 0x14, 0x00, 0x00, 0x5A]) = some (.xferStart []) ∧
    startOperands refusing.cfg [] = none := ⟨busy_inv, by decide⟩
theorem witness_RunsConsumeBothStreams :
    EngineInv busy ∧ busy.cfg.startBadPayload = .hardware ∧ busy.schedule = [] ∧
    busy.rxStream ≠ [] ∧ busy.bulkStream ≠ [] := ⟨busy_inv, by decide⟩
/-- Each of the three clauses: NET_CONNECT, XFER_START and XFER_END, from a state in use. -/
theorem witness_DispatcherStateHasOnlyItsWriters :
    peek State.pendingName (step (pending busy [0xA5, 0x10, 0x01, 0x41, 0x41, 0x5A])) = some [0x41] ∧
    peek State.lastNameBorder (step (pending (fresh [] [some 9] []) startFrame)) ≠
      some busy.lastNameBody ∧
    peek State.session (step (pending busy [0xA5, 0x15, 0x00, 0x00, 0x5A])) = some none := by decide
theorem witness_OneAnswerEchoingTheCommand :
    EngineInv busy ∧ ∃ t, runFor 2 busy = .next t ∧
      (t.transmitted.getLast?.bind fun f => f[1]?) = some 0x13 := ⟨busy_inv, ⟨_, rfl, rfl⟩⟩
theorem witness_AtMostOneEventAStep :
    ∃ t, step (pending busy [0xA5, 0x16, 0x01, 0x05, 0x05, 0x5A]) = .next t ∧
      t.events = [.unknownCommand 0x16] := ⟨_, rfl, rfl⟩
/-- XFER_END selects port 5; a failed checksum and PARAM_A select none. -/
theorem witness_HandlerSelectIsOneHot :
    (pending busy [0xA5, 0x15, 0x00, 0x00, 0x5A]).handlerSelect = 0b100000 ∧
    (pending busy [0xA5, 0x13, 0x00, 0x13, 0x5A]).handlerSelect = 0 ∧
    (pending busy [0xA5, 0x16, 0x01, 0x05, 0x05, 0x5A]).handlerSelect = 0 := by decide
/-- A receive transfer, a bulk transfer, and neither. -/
theorem witness_PortsTransferWhatTheStepTakes :
    (busy.rxValid = true ∧ busy.rxReady = true ∧ ∃ t, step busy = .next t) ∧
    ({ busy with schedule := [.bulk 1] }.bulkValid = true ∧
      { busy with schedule := [.bulk 1] }.bulkReady = true ∧
      ∃ t, step { busy with schedule := [.bulk 1] } = .next t) ∧
    State.reset.rxValid = false ∧ State.reset.bulkValid = false :=
  ⟨⟨rfl, rfl, _, rfl⟩, ⟨rfl, rfl, _, rfl⟩, rfl, rfl⟩
/-- A step that raises an event, and one that raises none. -/
theorem witness_EventPortShowsTheEvent :
    (∃ t, step (pending busy [0xA5, 0x16, 0x01, 0x05, 0x05, 0x5A]) = .next t ∧
      t.events = busy.events ++ [.unknownCommand 0x16]) ∧
    ∃ t, step busy = .next t ∧ t.events = busy.events := ⟨⟨_, rfl, rfl⟩, ⟨_, rfl, rfl⟩⟩
theorem witness_NameFieldLayout :
    Config.standard.Legal ∧ min (List.replicate 24 (0x41 : Byte)).length 15 ≤ 15 ∧
    min aBmp.length 15 ≤ 5 := ⟨standard_legal, by decide⟩
theorem witness_StatusRecordLayout :
    busy.lastNameBody.length = 16 ∧ busy.lastNameBorder.length = 16 := by decide
theorem witness_CategoryByteSelectsTheCategory :
    Config.standard.Legal ∧ (0x02 : Byte) ≠ Config.standard.catBody ∧
    (0x02 : Byte) ≠ Config.standard.catBorder := ⟨standard_legal, by decide⟩
theorem witness_LastTransferIsMarked : 5 < ([0xA5, 0x10, 0x01, 0x00, 0x00, 0x5A] : List Byte).length := by
  decide

end Sys2Proof.Tests
end

section
/-! SUPPORT. Little-endian counts (00_scope.md R14): what the bytes of a count are worth. -/

namespace Sys2Proof.Machine

/-- The value of the byte of a count that starts at bit `k`. -/
theorem count_byte_toNat (v : Count) (k : Nat) :
    (v.extractLsb' k 8).toNat = v.toNat / 2 ^ k % 256 := by
  rw [BitVec.extractLsb'_toNat, Nat.shiftRight_eq_div_pow]

/-- A count is the base 256 value of its four bytes: the bytes overlap nowhere, and `v.toNat < 2 ^ 32`
leaves no bit above the last. -/
theorem count_toNat_eq_bytes (v : Count) :
    v.toNat = (v.extractLsb' 0 8).toNat + 256 * (v.extractLsb' 8 8).toNat +
      65536 * (v.extractLsb' 16 8).toNat + 16777216 * (v.extractLsb' 24 8).toNat := by
  have bound : v.toNat < 2 ^ 32 := v.isLt
  simp only [count_byte_toNat]
  omega

/-- Settles O52: the four slices of `le32` are the bytes R14 names, and `count_toNat_eq_bytes` is their
value. -/
theorem littleEndianCountReadsBack : Obligations.LittleEndianCountReadsBack := fun v =>
  ⟨v.extractLsb' 0 8, v.extractLsb' 8 8, v.extractLsb' 16 8, v.extractLsb' 24 8, rfl,
    rfl, rfl, rfl, rfl, count_toNat_eq_bytes v⟩

end Sys2Proof.Machine
end

section
/-! SUPPORT. The kinds of step, each with the state it answers, and what FEED leaves alone. -/

namespace Sys2Proof.Machine

/-- What FEED leaves alone: everything but the framer's own elements and the events (R124). -/
structure FramerEffect (s u : State) : Prop where
  cfg : u.cfg = s.cfg
  pendingName : u.pendingName = s.pendingName
  session : u.session = s.session
  lastNameBody : u.lastNameBody = s.lastNameBody
  lastNameBorder : u.lastNameBorder = s.lastNameBorder
  txBuf : u.txBuf = s.txBuf
  rxStream : u.rxStream = s.rxStream
  bulkStream : u.bulkStream = s.bulkStream
  schedule : u.schedule = s.schedule
  transmitted : u.transmitted = s.transmitted
  calls : u.calls = s.calls

theorem feed_framerEffect (b : Byte) (s : State) : FramerEffect s (feed b s).2 := by
  rcases feed_cases b s with ⟨-, -, hf⟩ | ⟨-, -, hf⟩ | ⟨-, -, hf⟩ | ⟨-, -, -, hf⟩ |
      ⟨-, -, -, -, -, hf⟩ | ⟨-, -, -, -, hf⟩ <;>
    rw [hf] <;> constructor <;> rfl

/-- The state in which whatever follows a FEED runs: the next receive byte taken and fed (R170). -/
def byteFed (s : State) (b : Byte) (rest : List Byte) : State := (feed b (byteTaken s rest)).2

@[simp] theorem byteFed_cfg (s : State) (b : Byte) (rest : List Byte) :
    (byteFed s b rest).cfg = s.cfg := (feed_framerEffect b (byteTaken s rest)).cfg

/-- An ENGINE_STEP is its FEED alone, or drops a malformed frame, or executes `nextInstr` (R170). -/
theorem step_command {s : State} {b : Byte} {rest : List Byte} (ht : nextTurn s = .command)
    (hr : s.rxStream = b :: rest) :
    step s = .next (byteFed s b rest) ∨ step s = .next ((byteFed s b rest).emit .malformed) ∨
      ∃ i, nextInstr s = some i ∧ step s = exec i (byteFed s b rest) := by
  have hstep : step s = engineStep b (byteTaken s rest) := by
    simp only [step, takeTurn, serve, ht, hr]
  rcases engineStep_cases b (byteTaken s rest) with ⟨raw, hc, he⟩ | ⟨-, he⟩
  · have hfed := (feed_complete hc).2.2.2.2.2.2
    rw [hstep, he, ← hfed]
    rcases runFrame_cases raw (byteFed s b rest) with ⟨i, hi, hrun⟩ | ⟨-, hrun⟩
    · exact .inr (.inr ⟨i, by rw [nextInstr_command ht hr hc, ← byteFed_cfg s b rest, hi], hrun⟩)
    · exact .inr (.inl hrun)
  · exact .inl (hstep.trans he)

/-- If a step answers a next state: a wait, a WRITECHUNK, or an ENGINE_STEP of one of three kinds. -/
theorem step_next {s t : State} (h : step s = .next t) :
    (nextTurn s = .command ∧ s.rxStream = [] ∧ t = turnTaken s) ∨
    (∃ n, nextTurn s = .bulk n ∧ t = writeChunk n (turnTaken s)) ∨
    (∃ b rest, nextTurn s = .command ∧ s.rxStream = b :: rest ∧
      (t = byteFed s b rest ∨ t = (byteFed s b rest).emit .malformed ∨
        ∃ i, nextInstr s = some i ∧ exec i (byteFed s b rest) = .next t)) := by
  rcases step_cases s with ⟨ht, hr, hs⟩ | ⟨b, rest, ht, hr, -⟩ | ⟨n, ht, hs⟩
  · rw [hs] at h
    exact .inl ⟨ht, hr, (Host.Outcome.next.inj h).symm⟩
  · refine .inr (.inr ⟨b, rest, ht, hr, ?_⟩)
    rcases step_command ht hr with hs | hs | ⟨i, hi, hs⟩ <;> rw [hs] at h
    · exact .inl (Host.Outcome.next.inj h).symm
    · exact .inr (.inl (Host.Outcome.next.inj h).symm)
    · exact .inr (.inr ⟨i, hi, h⟩)
  · rw [hs] at h
    exact .inr (.inl ⟨n, ht, (Host.Outcome.next.inj h).symm⟩)

/-- A WRITECHUNK changes the bulk stream and the calls only (R251). -/
theorem writeChunk_eq (n : Nat) (s : State) :
    writeChunk n s = { s with
      bulkStream := s.bulkStream.drop n, calls := (writeChunk n s).calls } := by
  rcases writeChunk_cases n s with ⟨he, hw⟩ | ⟨-, -, hw⟩ | ⟨active, -, -, hw⟩
  · have hdrop : s.bulkStream.drop n = s.bulkStream := by
      simpa [he] using List.take_append_drop n s.bulkStream
    rw [hw, hdrop]
  · rw [hw]
  · rw [hw]

/-- No instruction touches the configuration, the streams or the schedule. -/
theorem exec_frame {i : Instr} {s t : State} (h : exec i s = .next t) :
    t.cfg = s.cfg ∧ t.rxStream = s.rxStream ∧ t.bulkStream = s.bulkStream ∧
      t.schedule = s.schedule := by
  obtain ⟨u, hu, rfl | ⟨p, -, -, rfl⟩⟩ := exec_next h
  · exact ⟨hu.cfg, hu.rxStream, hu.bulkStream, hu.schedule⟩
  · exact ⟨hu.cfg, hu.rxStream, hu.bulkStream, hu.schedule⟩

/-- Every step keeps the configuration and takes its turn off the schedule (R332). -/
theorem step_cfg_schedule {s t : State} (h : step s = .next t) :
    t.cfg = s.cfg ∧ t.schedule = s.schedule.tail := by
  rcases step_next h with ⟨-, -, rfl⟩ | ⟨n, -, rfl⟩ | ⟨b, rest, -, -, hb⟩
  · exact ⟨rfl, rfl⟩
  · rw [writeChunk_eq]
    exact ⟨rfl, rfl⟩
  · have hfed := feed_framerEffect b (byteTaken s rest)
    rcases hb with rfl | rfl | ⟨i, -, he⟩
    · exact ⟨hfed.cfg, hfed.schedule⟩
    · exact ⟨hfed.cfg, hfed.schedule⟩
    · obtain ⟨hcfg, -, -, hsched⟩ := exec_frame he
      exact ⟨hcfg.trans hfed.cfg, hsched.trans hfed.schedule⟩

/-- What a step takes from the two streams: nothing, a bulk chunk, or one receive byte (R51, R251). -/
theorem step_streams {s t : State} (h : step s = .next t) :
    (nextTurn s = .command ∧ s.rxStream = [] ∧ t.rxStream = s.rxStream ∧
      t.bulkStream = s.bulkStream) ∨
    (∃ n, nextTurn s = .bulk n ∧ t.rxStream = s.rxStream ∧
      t.bulkStream = s.bulkStream.drop n) ∨
    (nextTurn s = .command ∧ s.rxStream ≠ [] ∧ t.rxStream = s.rxStream.tail ∧
      t.bulkStream = s.bulkStream) := by
  rcases step_next h with ⟨ht, hr, rfl⟩ | ⟨n, ht, rfl⟩ | ⟨b, rest, ht, hr, hb⟩
  · exact .inl ⟨ht, hr, rfl, rfl⟩
  · rw [writeChunk_eq]
    exact .inr (.inl ⟨n, ht, rfl, rfl⟩)
  · have hfed := feed_framerEffect b (byteTaken s rest)
    refine .inr (.inr ⟨ht, by simp [hr], ?_⟩)
    rw [hr]
    rcases hb with rfl | rfl | ⟨i, -, he⟩
    · exact ⟨hfed.rxStream, hfed.bulkStream⟩
    · exact ⟨hfed.rxStream, hfed.bulkStream⟩
    · obtain ⟨-, hrx, hbulk, -⟩ := exec_frame he
      exact ⟨hrx.trans hfed.rxStream, hbulk.trans hfed.bulkStream⟩

/-! ### The instruction a step executes is well-formed -/

/-- The command map makes a well-formed request of a payload that fits a received frame (R85, R90). -/
theorem wellFormed_instrOf {cfg : Config} {c : Byte} {p : List Byte} (hp : cfg.fitsRx p.length) :
    (instrOf cfg c p).wellFormed cfg = true := by
  unfold instrOf
  repeat' split
  all_goals simp_all [Instr.wellFormed, Config.commandCodes, Config.handledCodes]

/-- A frame that fits the receive buffer is run as a well-formed instruction. -/
theorem wellFormed_instrOfFrame {cfg : Config} (legal : cfg.Legal) {raw : List Byte} {i : Instr}
    (hlen : raw.length ≤ cfg.rxCapacity) (hi : instrOfFrame cfg raw = some i) :
    i.wellFormed cfg = true := by
  unfold instrOfFrame decode at hi
  match hv : validate cfg raw with
  | .ok (c, p) =>
    obtain ⟨-, hraw⟩ := validate_ok cfg legal.overhead raw c p hv
    have hfits : cfg.fitsRx p.length := by
      have hover := legal.overhead
      have hsize : raw.length = p.length + 5 := by rw [hraw, length_frame]
      unfold Config.fitsRx
      omega
    rw [hv] at hi
    cases hi
    exact wellFormed_instrOf hfits
  | .error .malformed => rw [hv] at hi; cases hi
  | .error (.lengthMismatch c) => rw [hv] at hi; cases hi; rfl
  | .error (.checksumFailed c) => rw [hv] at hi; cases hi; rfl

/-- What `nextInstr` needs to name an instruction: a frame completed by the next receive byte. -/
theorem nextInstr_some {s : State} {i : Instr} (h : nextInstr s = some i) :
    ∃ b rest raw, nextTurn s = .command ∧ s.rxStream = b :: rest ∧
      (feed b (byteTaken s rest)).1 = .complete raw ∧ instrOfFrame s.cfg raw = some i := by
  unfold nextInstr at h
  split at h
  · rename_i b rest ht hr
    split at h
    · rename_i raw hc
      exact ⟨b, rest, raw, ht, hr, hc, h⟩
    all_goals cases h
  all_goals cases h

theorem wellFormed_nextInstr {s : State} {i : Instr} (legal : s.cfg.Legal)
    (h : nextInstr s = some i) : i.wellFormed s.cfg = true := by
  obtain ⟨b, rest, raw, -, -, hc, hi⟩ := nextInstr_some h
  obtain ⟨-, hlt, -, -, -, rfl, -⟩ := feed_complete hc
  exact wellFormed_instrOfFrame legal (by simpa using hlt) hi

end Sys2Proof.Machine
end

section
/-! SUPPORT. The invariant of the machine, part by part: what each operation needs to keep it. -/

namespace Sys2Proof.Machine

/-! ### The framer (R25) -/

/-- A Seeking framer of unknown length has the reassembly invariant, whatever its cells hold. -/
theorem reassemblyInv_of_seeking {s : State} (legal : s.cfg.Legal) (hw : s.writeIndex = 0)
    (he : s.expectedLength = 0) : ReassemblyInv s := by
  have hcap := legal.rxLower
  exact ⟨by omega, fun _ => he, fun h => by omega, fun h => by omega⟩

/-- A frame of one or two bytes starts with the header, and its length is unknown (R121). -/
theorem reassemblyInv_of_unknown {s : State} (legal : s.cfg.Legal) (hw : s.writeIndex < 3)
    (he : s.expectedLength = 0) (hheader : s.rxBuf.cell 0 = s.cfg.header) : ReassemblyInv s := by
  have hcap := legal.rxLower
  exact ⟨by omega, fun _ => he, fun h => by omega, fun _ => hheader⟩

/-- From the third byte on, the length is the one that byte declares, and not yet reached (R125). -/
theorem reassemblyInv_of_known {s : State} (hw : 3 ≤ s.writeIndex)
    (hknown : s.expectedLength = (s.rxBuf.cell 2).toNat + 5)
    (hhigh : s.expectedLength ≤ s.cfg.rxCapacity) (hopen : s.writeIndex < s.expectedLength)
    (hheader : s.rxBuf.cell 0 = s.cfg.header) : ReassemblyInv s :=
  ⟨by omega, fun h => by omega, fun _ => ⟨hknown, by omega, hhigh, hopen⟩, fun _ => hheader⟩

/-- A byte appended to a frame that it does not complete: before, at and after the length byte. -/
theorem ReassemblyInv.append {b : Byte} {s : State} (inv : ReassemblyInv s) (legal : s.cfg.Legal)
    (h0 : s.writeIndex ≠ 0)
    (hfit : s.writeIndex = 2 → b.toNat + s.cfg.overhead ≤ s.cfg.rxCapacity)
    (hopen : lengthAfter b s = 0 ∨ s.writeIndex + 1 ≠ lengthAfter b s) :
    ReassemblyInv { s.append b with expectedLength := lengthAfter b s } := by
  have hover := legal.overhead
  have hheader : (s.rxBuf.write s.writeIndex b).cell 0 = s.cfg.header := by
    rw [cell_write, if_neg (by omega)]
    exact inv.header (by omega)
  rcases Nat.lt_trichotomy s.writeIndex 2 with hw | hw | hw
  · have hlen : lengthAfter b s = 0 := by
      rw [lengthAfter, if_neg (by omega)]
      exact inv.unknown (by omega)
    exact reassemblyInv_of_unknown legal (show s.writeIndex + 1 < 3 by omega) hlen hheader
  · have hlen : lengthAfter b s = b.toNat + 5 := by rw [lengthAfter, if_pos hw, hover]
    have hcell : (s.rxBuf.write s.writeIndex b).cell 2 = b := by rw [cell_write, if_pos hw.symm]
    refine reassemblyInv_of_known ?_ ?_ ?_ ?_ hheader <;>
      simp only [append_cfg, append_rxBuf, append_writeIndex, hcell, hlen] <;> omega
  · obtain ⟨hknown, -, hhigh, hbelow⟩ := inv.known (by omega)
    have hlen : lengthAfter b s = s.expectedLength := by rw [lengthAfter, if_neg (by omega)]
    have hcell : (s.rxBuf.write s.writeIndex b).cell 2 = s.rxBuf.cell 2 := by
      rw [cell_write, if_neg (by omega)]
    refine reassemblyInv_of_known ?_ ?_ ?_ ?_ hheader <;>
      simp only [append_cfg, append_rxBuf, append_writeIndex, hcell, hlen] <;> omega

theorem ReassemblyInv.feed {b : Byte} {s : State} (inv : ReassemblyInv s) (legal : s.cfg.Legal) :
    ReassemblyInv (feed b s).2 := by
  rcases feed_cases b s with ⟨-, -, hf⟩ | ⟨-, hb, hf⟩ | ⟨-, -, hf⟩ | ⟨-, -, -, hf⟩ |
      ⟨-, -, -, -, -, hf⟩ | ⟨h0, -, hbig, hopen, hf⟩ <;> rw [hf]
  · exact inv
  · exact reassemblyInv_of_unknown legal (show 1 < 3 by decide) rfl (by simp [cell_write, hb])
  · exact reassemblyInv_of_seeking legal rfl rfl
  · exact reassemblyInv_of_seeking legal rfl rfl
  · exact reassemblyInv_of_seeking legal rfl rfl
  · exact inv.append legal h0 hbig hopen

/-! ### The buffers (R21) -/

/-- Cells written in order leave no gap: after a write at the end, one more is written. -/
theorem written_write {m : Memory} {n : Nat} (b : Byte) (h : ∀ a < n, (m.read? a).isSome) :
    ∀ a < n + 1, ((m.write n b).read? a).isSome := by
  intro a ha
  rw [read?_write]
  split
  · rfl
  · exact h a (by omega)

theorem BufferInv.feed {b : Byte} {s : State} (inv : BufferInv s) (legal : s.cfg.Legal) :
    BufferInv (feed b s).2 := by
  have hcap := legal.rxLower
  have noneWritten (m : Memory) : ∀ a < 0, (m.read? a).isSome := fun a h => by omega
  rcases feed_cases b s with ⟨-, -, hf⟩ | ⟨-, -, hf⟩ | ⟨-, -, hf⟩ | ⟨-, hlt, -, hf⟩ |
      ⟨-, hlt, -, -, -, hf⟩ | ⟨-, hlt, -, -, hf⟩ <;> rw [hf]
  · exact inv
  · exact ⟨wf_write _ _ _ _ inv.rx (show 0 < s.cfg.rxCapacity by omega), inv.tx,
      written_write b (noneWritten _)⟩
  · exact ⟨inv.rx, inv.tx, noneWritten _⟩
  · exact ⟨wf_write _ _ _ _ inv.rx hlt, inv.tx, noneWritten _⟩
  · exact ⟨wf_write _ _ _ _ inv.rx hlt, inv.tx, noneWritten _⟩
  · exact ⟨wf_write _ _ _ _ inv.rx hlt, inv.tx, written_write b inv.written⟩

/-! ### The dispatcher's state (R28 to R31) -/

/-- The empty name is a name field. -/
theorem nameField_emptyName {cfg : Config} (legal : cfg.Legal) : NameField (emptyName cfg) := by
  rw [emptyName, legal.nameFieldLen]
  exact ⟨rfl, rfl⟩

/-- At most 15 bytes of a name are kept, so its field ends in the padding (R101). -/
theorem nameField_fieldOf {cfg : Config} (legal : cfg.Legal) (name : List Byte) :
    NameField (fieldOf cfg name) := by
  have hle : (name.take 15).length ≤ 15 := by simp
  rw [fieldOf, legal.nameFieldLen, legal.nameVisibleMax]
  refine ⟨by simp only [pad0, List.length_append, List.length_replicate]; omega, ?_⟩
  rw [pad0, List.getElem?_append_right hle, List.getElem?_replicate, if_pos (by omega)]

theorem HandlerEffect.shapeInv {i : Instr} {s u : State} (eff : HandlerEffect i s u)
    (legal : s.cfg.Legal) (wf : i.wellFormed s.cfg = true) (inv : ShapeInv s) : ShapeInv u := by
  have hnames : NameField u.lastNameBody ∧ NameField u.lastNameBorder := by
    rcases eff.lastNames with ⟨hbody, hborder⟩ | ⟨p, name, -, hbody, hborder⟩
    · rw [hbody, hborder]
      exact ⟨inv.lastNameBody, inv.lastNameBorder⟩
    · have hfield := nameField_fieldOf legal name
      constructor
      · rcases hbody with h | h <;> rw [h]
        exacts [inv.lastNameBody, hfield]
      · rcases hborder with h | h <;> rw [h]
        exacts [inv.lastNameBorder, hfield]
  refine ⟨?_, ?_, hnames.1, hnames.2⟩ <;> rw [eff.cfg]
  · rcases eff.pendingName with h | h
    · rw [h]
      exact inv.pendingName
    · rw [h] at wf
      exact of_decide_eq_true wf
  · intro active hactive
    rcases eff.session with h | ⟨⟨p, rfl, hlen⟩⟩ | ⟨-, h⟩
    · exact inv.sessionName active (h ▸ hactive)
    · rw [hlen active hactive]
      exact of_decide_eq_true wf
    · rw [h] at hactive
      cases hactive

/-- The ownership rule holds of a run of calls if it holds of its parts in turn. -/
theorem ownedAfter_append {calls new : List Call} {owned : Option Handle}
    (h : ownedAfter calls = some owned) :
    ownedAfter (calls ++ new) = new.foldlM ownerStep owned := by
  unfold ownedAfter at h ⊢
  rw [List.foldlM_append, h]
  rfl

theorem HandlerEffect.sessionInv {i : Instr} {s u : State} (eff : HandlerEffect i s u)
    (inv : SessionInv s) : SessionInv u := by
  obtain ⟨new, hcalls, howned⟩ := eff.calls
  rw [SessionInv, hcalls, ownedAfter_append inv, howned]

/-- A WRITECHUNK writes to the session's handle, and leaves its owner (R31, R251). -/
theorem SessionInv.writeChunk {s : State} (n : Nat) (inv : SessionInv s) :
    SessionInv (writeChunk n s) := by
  rcases writeChunk_cases n s with ⟨-, hw⟩ | ⟨-, -, hw⟩ | ⟨active, -, hs, hw⟩ <;> rw [hw]
  · exact inv
  · exact inv
  · show ownedAfter (s.calls ++ [_]) = some (s.session.map (·.handle))
    rw [ownedAfter_append inv, hs]
    simp [ownerStep]

/-! ### The whole invariant -/

/-- The invariant does not speak of the inputs to come or of the events, and of the calls only by the
handle they leave owned. -/
theorem EngineInv.of_engine {s : State} (inv : EngineInv s) (rx bulk : List Byte)
    (turns : List Turn) (events : List Diagnostic) {calls : List Call}
    (howned : ownedAfter calls = some (s.session.map (·.handle))) :
    EngineInv { s with
      rxStream := rx, bulkStream := bulk, schedule := turns, calls := calls, events := events } :=
  ⟨inv.legal, ⟨inv.reassembly.below, inv.reassembly.unknown, inv.reassembly.known,
    inv.reassembly.header⟩, ⟨inv.buffers.rx, inv.buffers.tx, inv.buffers.written⟩,
    ⟨inv.shapes.pendingName, inv.shapes.sessionName, inv.shapes.lastNameBody,
      inv.shapes.lastNameBorder⟩, howned, inv.sent⟩

theorem EngineInv.turnTaken {s : State} (inv : EngineInv s) : EngineInv (turnTaken s) :=
  inv.of_engine s.rxStream s.bulkStream s.schedule.tail s.events inv.session

theorem EngineInv.byteTaken {s : State} (inv : EngineInv s) (rest : List Byte) :
    EngineInv (byteTaken s rest) :=
  inv.of_engine rest s.bulkStream s.schedule.tail s.events inv.session

theorem EngineInv.emit {s : State} (inv : EngineInv s) (e : Diagnostic) : EngineInv (s.emit e) :=
  inv.of_engine s.rxStream s.bulkStream s.schedule (s.events ++ [e]) inv.session

theorem EngineInv.writeChunk {s : State} (inv : EngineInv s) (n : Nat) :
    EngineInv (writeChunk n s) := by
  have howned := inv.session.writeChunk n
  rw [writeChunk_eq] at howned ⊢
  exact inv.of_engine s.rxStream (s.bulkStream.drop n) s.schedule s.events howned

theorem EngineInv.feed {s : State} (inv : EngineInv s) (b : Byte) : EngineInv (feed b s).2 := by
  have eff := feed_framerEffect b s
  refine ⟨?_, inv.reassembly.feed inv.legal, inv.buffers.feed inv.legal, ⟨?_, ?_, ?_, ?_⟩, ?_, ?_⟩
  · rw [eff.cfg]
    exact inv.legal
  · rw [eff.cfg, eff.pendingName]
    exact inv.shapes.pendingName
  · rw [eff.cfg, eff.session]
    exact inv.shapes.sessionName
  · rw [eff.lastNameBody]
    exact inv.shapes.lastNameBody
  · rw [eff.lastNameBorder]
    exact inv.shapes.lastNameBorder
  · rw [SessionInv, eff.calls, eff.session]
    exact inv.session
  · rw [SentInv, eff.transmitted, eff.cfg]
    exact inv.sent

theorem EngineInv.byteFed {s : State} (inv : EngineInv s) (b : Byte) (rest : List Byte) :
    EngineInv (byteFed s b rest) := (inv.byteTaken rest).feed b

/-- The effect of a well-formed instruction, before its reply goes out, keeps the invariant. -/
theorem EngineInv.handlerEffect {i : Instr} {s u : State} (inv : EngineInv s)
    (wf : i.wellFormed s.cfg = true) (eff : HandlerEffect i s u) : EngineInv u := by
  refine ⟨?_, ⟨?_, ?_, ?_, ?_⟩, ⟨?_, ?_, ?_⟩, eff.shapeInv inv.legal wf inv.shapes,
    eff.sessionInv inv.session, ?_⟩
  · rw [eff.cfg]
    exact inv.legal
  · rw [eff.cfg, eff.writeIndex]
    exact inv.reassembly.below
  · rw [eff.writeIndex, eff.expectedLength]
    exact inv.reassembly.unknown
  · rw [eff.cfg, eff.rxBuf, eff.writeIndex, eff.expectedLength]
    exact inv.reassembly.known
  · rw [eff.cfg, eff.rxBuf, eff.writeIndex]
    exact inv.reassembly.header
  · rw [eff.cfg, eff.rxBuf]
    exact inv.buffers.rx
  · rw [eff.cfg, eff.txBuf]
    exact inv.buffers.tx
  · rw [eff.rxBuf, eff.writeIndex]
    exact inv.buffers.written
  · rw [SentInv, eff.transmitted, eff.cfg]
    exact inv.sent

/-- Sending a well-formed sent form that fits the transmit buffer keeps the invariant (R94, R233). -/
theorem EngineInv.txSend {g : Instr} {s : State} (inv : EngineInv s) (hg : g.isRequest = false)
    (wf : g.wellFormed s.cfg = true) (hfits : s.cfg.fitsTx (g.payload s.cfg).length) :
    EngineInv (s.txSend (encode s.cfg g)) := by
  refine ⟨inv.legal, ⟨inv.reassembly.below, inv.reassembly.unknown, inv.reassembly.known,
    inv.reassembly.header⟩, ⟨inv.buffers.rx, wf_store _ _ _ _ inv.buffers.tx ?_,
    inv.buffers.written⟩, ⟨inv.shapes.pendingName, inv.shapes.sessionName,
    inv.shapes.lastNameBody, inv.shapes.lastNameBorder⟩, inv.session, ?_⟩
  · have hover := inv.legal.overhead
    rw [length_encode]
    unfold Config.fitsTx at hfits
    show 0 + ((g.payload s.cfg).length + 5) ≤ s.cfg.txCapacity
    omega
  · intro f hf
    rcases List.mem_append.mp hf with hold | hnew
    · exact inv.sent f hold
    · exact ⟨g, hg, wf, List.mem_singleton.mp hnew⟩

/-- The reply of a well-formed instruction is the frame of a well-formed sent form. -/
theorem EngineInv.reply_wellFormed {i : Instr} {s : State} {p : List Byte} (inv : EngineInv s)
    (wf : i.wellFormed s.cfg = true) (h : IsSentForm i s p) :
    ∃ g : Instr, g.isRequest = false ∧ g.wellFormed s.cfg = true ∧ g.payload s.cfg = p ∧
      encode s.cfg g = frame s.cfg (i.code s.cfg) p := by
  obtain ⟨g, hg, hcode, rfl, hwf⟩ := h
  exact ⟨g, hg, hwf inv.legal inv.shapes.lastNameBody inv.shapes.lastNameBorder fun _ => wf, rfl,
    by rw [encode, hcode]⟩

/-- A well-formed instruction keeps the invariant. -/
theorem EngineInv.exec {i : Instr} {s t : State} (inv : EngineInv s)
    (wf : i.wellFormed s.cfg = true) (h : exec i s = .next t) : EngineInv t := by
  obtain ⟨u, eff, rfl | ⟨p, hfits, hsent, rfl⟩⟩ := exec_next h
  · exact inv.handlerEffect wf eff
  · obtain ⟨g, hg, hwf, rfl, hframe⟩ := inv.reply_wellFormed wf hsent
    have hu := inv.handlerEffect wf eff
    rw [← hframe, ← eff.cfg]
    exact hu.txSend hg (by rwa [eff.cfg]) (by rwa [eff.cfg])

/-- At the start of a run nothing has been received, sent or opened (R300). -/
theorem engineInv_initial {cfg : Config} (legal : cfg.Legal) (rx bulk : List Byte)
    (schedule : List Turn) (joins : List Byte) (opens : List (Option Handle))
    (counts : List Count) : EngineInv (State.initial cfg rx bulk schedule joins opens counts) where
  legal := legal
  reassembly := reassemblyInv_of_seeking legal rfl rfl
  buffers := ⟨wf_empty _, wf_empty _, fun _ h => absurd h (Nat.not_lt_zero _)⟩
  shapes := ⟨by
      have hover := legal.overhead
      have hcap := legal.rxLower
      show 0 + cfg.overhead ≤ cfg.rxCapacity
      omega, fun _ h => (nomatch h), nameField_emptyName legal, nameField_emptyName legal⟩
  session := rfl
  sent := fun _ h => (nomatch h)

/-- Settles O42: `engineInv_initial`, and the reset state is a start with nothing waiting. -/
theorem startStatesHaveTheInvariant : Obligations.StartStatesHaveTheInvariant := by
  refine ⟨?_, engineInv_initial standard_legal [] [] [] [] [] []⟩
  rintro s ⟨cfg, rx, bulk, schedule, joins, opens, counts, legal, rfl⟩
  exact engineInv_initial legal rx bulk schedule joins opens counts

/-- Settles O43, one kind of step after the other: the streams and the events are no part of the
invariant, and a WRITECHUNK, a FEED and a well-formed instruction each keep it. -/
theorem everyStepKeepsTheInvariant : Obligations.EveryStepKeepsTheInvariant := by
  intro s t inv h
  rcases step_next h with ⟨-, -, rfl⟩ | ⟨n, -, rfl⟩ | ⟨b, rest, -, -, rfl | rfl | ⟨i, hi, he⟩⟩
  · exact inv.turnTaken
  · exact inv.turnTaken.writeChunk n
  · exact inv.byteFed b rest
  · exact (inv.byteFed b rest).emit .malformed
  · have wf := wellFormed_nextInstr inv.legal hi
    exact (inv.byteFed b rest).exec (by rwa [byteFed_cfg]) he

end Sys2Proof.Machine
end

section
/-! SUPPORT. A run served in port order (10_state.md R42, 70_reset_and_hazards.md R331): every step
completes, and each takes one byte. -/

namespace Sys2Proof.Machine

/-- A well-formed sent form fits the transmit buffer (R233). -/
theorem fitsTx_sentForm {cfg : Config} (legal : cfg.Legal) {g : Instr} (hg : g.isRequest = false)
    (wf : g.wellFormed cfg = true) : cfg.fitsTx (g.payload cfg).length := by
  cases g with
  | success _ | errLen _ | errCksum _ | joinStatus _ => exact fitsTx_one legal
  | fileStatusReply record =>
    have hrecord : record.length = cfg.statusLen := by
      simp only [Instr.wellFormed, Bool.and_eq_true, beq_iff_eq] at wf
      exact wf.1
    have hover := legal.overhead
    have hlow := legal.txLower
    show record.length + cfg.overhead ≤ cfg.txCapacity
    omega
  | netConnect _ | netPassword _ | netConfirm _ | fileStatus _ | xferStart _ | xferEnd _
  | paramA _ | paramB _ | unknown _ _ => cases hg

/-- Under the hardware policy of R209 a well-formed instruction neither faults nor is refused. -/
theorem EngineInv.exec_completes {i : Instr} {s : State} (inv : EngineInv s)
    (hpolicy : s.cfg.startBadPayload = .hardware) (wf : i.wellFormed s.cfg = true) :
    ∃ t, Machine.exec i s = .next t := by
  rcases exec_shape i s with ⟨p, u, hr, eff, hsent⟩ | ⟨u, hr, -⟩ | ⟨-, hrefuse, -⟩
  · obtain ⟨g, hg, hwf, rfl, -⟩ := inv.reply_wellFormed wf hsent
    have hfits : u.cfg.fitsTx (g.payload s.cfg).length := by
      rw [eff.cfg]
      exact fitsTx_sentForm inv.legal hg hwf
    exact ⟨_, hr.trans (reply_of_fits hfits)⟩
  · exact ⟨u, hr⟩
  · rw [hpolicy] at hrefuse
    cases hrefuse

/-- Under the hardware policy every step from a state with the invariant answers a next state. -/
theorem EngineInv.step_completes {s : State} (inv : EngineInv s)
    (hpolicy : s.cfg.startBadPayload = .hardware) : ∃ t, step s = .next t := by
  rcases step_cases s with ⟨-, -, hs⟩ | ⟨b, rest, ht, hr, -⟩ | ⟨n, -, hs⟩
  · exact ⟨_, hs⟩
  · rcases step_command ht hr with hs | hs | ⟨i, hi, hs⟩
    · exact ⟨_, hs⟩
    · exact ⟨_, hs⟩
    · rw [hs]
      exact (inv.byteFed b rest).exec_completes (by rwa [byteFed_cfg])
        (by rw [byteFed_cfg]; exact wellFormed_nextInstr inv.legal hi)
  · exact ⟨_, hs⟩

/-- With an empty schedule the receive stream is served first, then the bulk stream (R42). -/
theorem nextTurn_port {s : State} (h : s.schedule = []) :
    (s.rxStream ≠ [] ∧ nextTurn s = .command) ∨ (s.rxStream = [] ∧ nextTurn s = .bulk 1) := by
  unfold nextTurn portTurn
  rw [h]
  cases s.rxStream with
  | nil => exact .inr ⟨rfl, rfl⟩
  | cons b rest => exact .inl ⟨by simp, rfl⟩

/-- How many bytes of both streams are still to be consumed. -/
def bytesLeft (s : State) : Nat := s.rxStream.length + s.bulkStream.length

theorem bytesLeft_eq_zero {s : State} : bytesLeft s = 0 ↔ StreamsConsumed s := by
  simp [bytesLeft, StreamsConsumed]

/-- In port order a step takes one byte, of the receive stream while it has one. -/
theorem bytesLeft_step {s t : State} (hport : s.schedule = []) (h : step s = .next t) :
    bytesLeft t = bytesLeft s - 1 := by
  unfold bytesLeft
  rcases nextTurn_port hport with ⟨hne, hturn⟩ | ⟨hnil, hturn⟩ <;>
    rcases step_streams h with ⟨ht, hr, hrx, hbulk⟩ | ⟨n, ht, hrx, hbulk⟩ | ⟨ht, hr, hrx, hbulk⟩ <;>
    rw [hturn] at ht <;> cases ht
  · exact absurd hr hne
  · have hpos := List.length_pos_of_ne_nil hne
    rw [hrx, hbulk, List.length_tail]
    omega
  · rw [hrx, hbulk, hnil, List.length_drop, List.length_nil]
    omega

/-- A run of as many steps as bytes are left, by induction on their number: each step completes, keeps
what the next one needs, and takes a byte. -/
theorem EngineInv.run_consumes (n : Nat) : ∀ s : State, EngineInv s →
    s.cfg.startBadPayload = .hardware → s.schedule = [] → bytesLeft s = n →
    ∃ t, runFor n s = .next t ∧ StreamsConsumed t := by
  induction n with
  | zero => exact fun s _ _ _ hleft => ⟨s, rfl, bytesLeft_eq_zero.mp hleft⟩
  | succ n ih =>
    intro s inv hpolicy hport hleft
    obtain ⟨t, hstep⟩ := inv.step_completes hpolicy
    obtain ⟨hcfg, hsched⟩ := step_cfg_schedule hstep
    have hone := bytesLeft_step hport hstep
    rw [runFor_succ_next hstep]
    exact ih t (everyStepKeepsTheInvariant s t inv hstep) (by rw [hcfg, hpolicy])
      (by rw [hsched, hport, List.tail_nil]) (by omega)

/-- Settles O45, by `EngineInv.run_consumes`. -/
theorem runsConsumeBothStreams : Obligations.RunsConsumeBothStreams :=
  fun s inv hpolicy hport => EngineInv.run_consumes _ s inv hpolicy hport rfl

end Sys2Proof.Machine
end

section
/-! SUPPORT. What an instruction stages in the transmit buffer, and which element of the dispatcher's
state each step writes. -/

namespace Sys2Proof.Machine

/-- Settles O39: of what an instruction does only its reply touches the transmit buffer, and `read?_store`
says what the staged cells read as. -/
theorem sendingStagesExactlyTheFrame : Obligations.SendingStagesExactlyTheFrame := by
  intro i s t h
  obtain ⟨u, eff, rfl | ⟨p, -, -, rfl⟩⟩ := exec_next h
  · exact .inl ⟨eff.transmitted, fun a => by rw [eff.txBuf]⟩
  · refine .inr ⟨_, by rw [txSend_transmitted, eff.transmitted], fun a ha => ?_, fun a ha => ?_⟩
    · rw [txSend_txBuf, read?_store, if_pos (by omega), Nat.sub_zero]
    · rw [txSend_txBuf, read?_store, if_neg (by omega), eff.txBuf]

/-- What a step leaves of the dispatcher's state if it executes no instruction: all of it. -/
theorem sameDispatcherState_or_exec {s t : State} (h : step s = .next t) :
    SameDispatcherState s t ∨
      ∃ i u, nextInstr s = some i ∧ SameDispatcherState s u ∧ exec i u = .next t := by
  rcases step_next h with ⟨-, -, rfl⟩ | ⟨n, -, rfl⟩ | ⟨b, rest, -, -, hb⟩
  · exact .inl ⟨rfl, rfl, rfl, rfl⟩
  · rw [writeChunk_eq]
    exact .inl ⟨rfl, rfl, rfl, rfl⟩
  · have eff := feed_framerEffect b (byteTaken s rest)
    have hfed : SameDispatcherState s (byteFed s b rest) :=
      ⟨eff.pendingName, eff.session, eff.lastNameBody, eff.lastNameBorder⟩
    rcases hb with rfl | rfl | ⟨i, hi, he⟩
    · exact .inl hfed
    · exact .inl hfed
    · exact .inr ⟨i, _, hi, hfed, he⟩

/-- The effect that an instruction has on the dispatcher's state is there in the state it answers: its
reply adds none. -/
theorem exec_dispatcherState {i : Instr} {s t : State} (h : exec i s = .next t) :
    ∃ u, HandlerEffect i s u ∧ SameDispatcherState u t := by
  obtain ⟨u, eff, rfl | ⟨p, -, -, rfl⟩⟩ := exec_next h
  · exact ⟨_, eff, rfl, rfl, rfl, rfl⟩
  · exact ⟨u, eff, rfl, rfl, rfl, rfl⟩

/-- Settles O46: a step that executes no instruction leaves the dispatcher's state alone, and
`HandlerEffect` names the one that writes each element. -/
theorem dispatcherStateHasOnlyItsWriters : Obligations.DispatcherStateHasOnlyItsWriters := by
  intro s t h
  rcases sameDispatcherState_or_exec h with ⟨hpending, hsession, hbody, hborder⟩ |
    ⟨i, u, hi, ⟨hpending, hsession, hbody, hborder⟩, he⟩
  · exact ⟨fun hne => absurd hpending hne, fun hne => hne.elim (absurd hbody) (absurd hborder),
      fun hne => absurd hsession hne⟩
  obtain ⟨v, eff, hpending', hsession', hbody', hborder'⟩ := exec_dispatcherState he
  refine ⟨fun hne => ?_, fun hne => ?_, fun hne => ?_⟩
  · rcases eff.pendingName with hsame | rfl
    · exact absurd (hpending'.trans (hsame.trans hpending)) hne
    · exact ⟨_, hi, hpending'⟩
  · rcases eff.lastNames with ⟨hsame, hsame'⟩ | ⟨p, name, rfl, -, -⟩
    · exact hne.elim (absurd (hbody'.trans (hsame.trans hbody)))
        (absurd (hborder'.trans (hsame'.trans hborder)))
    · exact ⟨p, hi⟩
  · rcases eff.session with hsame | ⟨p, rfl, -⟩ | ⟨⟨p, rfl⟩, hnone⟩
    · exact absurd (hsession'.trans (hsame.trans hsession)) hne
    · exact .inl ⟨p, hi⟩
    · exact .inr ⟨⟨p, hi⟩, hsession'.trans hnone⟩

end Sys2Proof.Machine
end

section
/-! SUPPORT. The port binding of 10_state.md R40 to R45: one-hot signals, the handler select, the stream
handshakes, the transmit transfers and the event port. -/

namespace Sys2Proof.Machine

/-- The bits of a one-hot word. -/
theorem getLsbD_oneHot {w p : Nat} (hp : p < w) (k : Nat) :
    (1#w <<< p).getLsbD k = true ↔ k = p := by
  simp only [BitVec.getLsbD_shiftLeft, BitVec.getLsbD_one, Bool.and_eq_true, Bool.not_eq_true',
    decide_eq_true_eq, decide_eq_false_iff_not]
  omega

/-! ### The handler select (R43, R177) -/

/-- The next receive byte completes a frame that passes VALIDATE and whose command has handler `k`. -/
def SelectsHandler (s : State) (k : Fin 6) : Prop :=
  ∃ b rest raw c p, nextTurn s = .command ∧ s.rxStream = b :: rest ∧
    (feed b (byteTaken s rest)).1 = .complete raw ∧
    validate s.cfg raw = .ok (c, p) ∧ handlerPort s.cfg c = some k

theorem handlerCall_instrOf (cfg : Config) (c : Byte) (p : List Byte) :
    handlerCall cfg (instrOf cfg c p) =
      (handlerPort cfg c).map fun port => ⟨1#6 <<< port.val, c, BitVec.ofNat 8 p.length, p⟩ := by
  simp [handlerCall, isRequest_instrOf]

/-- The select of a frame that passes VALIDATE is the port of its command. -/
theorem handlerSelect_of_selects {s : State} {k : Fin 6} (h : SelectsHandler s k) :
    s.handlerSelect = 1#6 <<< k.val := by
  obtain ⟨b, rest, raw, c, p, ht, hr, hc, hv, hport⟩ := h
  have hi : nextInstr s = some (instrOf s.cfg c p) := by
    rw [nextInstr_command ht hr hc, instrOfFrame, decode, hv]
  rw [State.handlerSelect, hi, Option.bind_some, handlerCall_instrOf, hport]
  rfl

/-- An instruction run for a candidate frame that makes a handler call is the request of a valid frame;
the error forms make none. -/
theorem validate_of_handlerCall {cfg : Config} {raw : List Byte} {i : Instr} {call : HandlerCall}
    (hi : instrOfFrame cfg raw = some i) (hcall : handlerCall cfg i = some call) :
    ∃ c p k, validate cfg raw = .ok (c, p) ∧ handlerPort cfg c = some k := by
  unfold instrOfFrame decode at hi
  match hv : validate cfg raw with
  | .ok (c, p) =>
    rw [hv] at hi
    cases hi
    rw [handlerCall_instrOf] at hcall
    obtain ⟨k, hk, -⟩ := Option.map_eq_some_iff.mp hcall
    exact ⟨c, p, k, rfl, hk⟩
  | .error .malformed => rw [hv] at hi; cases hi
  | .error (.lengthMismatch c) => rw [hv] at hi; cases hi; cases hcall
  | .error (.checksumFailed c) => rw [hv] at hi; cases hi; cases hcall

/-- Where no handler is selected the select is 0. -/
theorem handlerSelect_cases (s : State) :
    (∃ k, SelectsHandler s k) ∨ s.handlerSelect = 0#6 := by
  unfold State.handlerSelect
  split
  · rename_i call hcall
    obtain ⟨i, hi, hcall⟩ := Option.bind_eq_some_iff.mp hcall
    obtain ⟨b, rest, raw, ht, hr, hc, hi⟩ := nextInstr_some hi
    obtain ⟨c, p, k, hv, hk⟩ := validate_of_handlerCall hi hcall
    exact .inl ⟨k, b, rest, raw, c, p, ht, hr, hc, hv, hk⟩
  · exact .inr rfl

/-- A set bit of the select is the number of the selected handler. -/
theorem handlerSelect_bit {s : State} {j : Nat} (h : s.handlerSelect.getLsbD j = true) :
    ∃ k : Fin 6, SelectsHandler s k ∧ j = k.val := by
  rcases handlerSelect_cases s with ⟨k, hk⟩ | hzero
  · rw [handlerSelect_of_selects hk] at h
    exact ⟨k, hk, (getLsbD_oneHot k.isLt j).mp h⟩
  · simp [hzero] at h

/-- Settles O49: the select is the one-hot word of the selected handler, or 0. -/
theorem handlerSelectIsOneHot : Obligations.HandlerSelectIsOneHot := by
  refine fun s => ⟨fun k => ⟨fun h => ?_, fun h => ?_⟩, fun j k hj hk => ?_⟩
  · obtain ⟨k', hsel, hval⟩ := handlerSelect_bit h
    obtain rfl := Fin.ext hval
    exact hsel
  · rw [handlerSelect_of_selects h]
    exact (getLsbD_oneHot k.isLt k).mpr rfl
  · obtain ⟨k', hsel, rfl⟩ := handlerSelect_bit hj
    rw [handlerSelect_of_selects hsel] at hk
    exact ((getLsbD_oneHot k'.isLt k).mp hk).symm

/-! ### The stream handshakes (R40, R42) -/

theorem rxValid_iff (s : State) :
    s.rxValid = true ↔ nextTurn s = .command ∧ s.rxStream ≠ [] := by
  unfold State.rxValid
  split <;> simp_all

/-- A receive byte transfers where one is offered: the engine is ready between two steps. -/
theorem rxTransfer_iff (s : State) :
    s.rxValid = true ∧ s.rxReady = true ↔ nextTurn s = .command ∧ s.rxStream ≠ [] := by
  rw [← rxValid_iff]
  simp [State.rxReady]

/-- Bulk bytes transfer at a bulk turn that is not empty; a receive byte offered holds them off. -/
theorem bulkTransfer_iff (s : State) :
    s.bulkValid = true ∧ s.bulkReady = true ↔
      ∃ n, nextTurn s = .bulk n ∧ n ≠ 0 ∧ s.bulkStream ≠ [] := by
  unfold State.bulkValid State.bulkReady
  cases ht : nextTurn s with
  | command => cases s.rxValid <;> simp
  | bulk n =>
    have hrx : s.rxValid = false := by simp [State.rxValid, ht]
    simp [hrx]

/-- A bulk turn takes no byte exactly where none transfers. -/
theorem drop_of_no_bulkTransfer {n : Nat} {s : State} (ht : nextTurn s = .bulk n)
    (h : ¬(s.bulkValid = true ∧ s.bulkReady = true)) : s.bulkStream.drop n = s.bulkStream := by
  rw [bulkTransfer_iff] at h
  by_cases hn : n = 0
  · rw [hn, List.drop_zero]
  · have hnil : s.bulkStream = [] := by
      by_contra hne
      exact h ⟨n, ht, hn, hne⟩
    rw [hnil, List.drop_nil]

/-- Settles O57: `step_streams` says what each kind of step takes, the lemmas above when the ports
transfer. -/
theorem portsTransferWhatTheStepTakes : Obligations.PortsTransferWhatTheStepTakes := by
  intro s t h
  refine ⟨fun hrx => ?_, fun hrx => ?_, fun hbulk => ?_, fun hbulk => ?_,
    fun hrx => by rw [State.bulkReady, hrx]; rfl⟩
  · obtain ⟨hturn, hne⟩ := (rxTransfer_iff s).mp hrx
    rcases step_streams h with ⟨-, hnil, -, -⟩ | ⟨n, ht, -, -⟩ | ⟨-, -, htail, -⟩
    · exact absurd hnil hne
    · rw [hturn] at ht
      cases ht
    · exact ⟨htail, hne⟩
  · rw [rxTransfer_iff] at hrx
    rcases step_streams h with ⟨-, -, hsame, -⟩ | ⟨n, -, hsame, -⟩ | ⟨ht, hne, -, -⟩
    · exact hsame
    · exact hsame
    · exact absurd ⟨ht, hne⟩ hrx
  · obtain ⟨n, hturn, hn, hne⟩ := (bulkTransfer_iff s).mp hbulk
    have hpos := List.length_pos_of_ne_nil hne
    rcases step_streams h with ⟨ht, -, -, -⟩ | ⟨m, ht, -, hdrop⟩ | ⟨ht, -, -, -⟩ <;>
      rw [hturn] at ht <;> cases ht
    rw [hdrop, List.length_drop]
    omega
  · rcases step_streams h with ⟨-, -, -, hsame⟩ | ⟨n, ht, -, hdrop⟩ | ⟨-, -, -, hsame⟩
    · exact hsame
    · rw [hdrop, drop_of_no_bulkTransfer ht hbulk]
    · exact hsame

/-! ### The transmit transfers (R41) -/

theorem txTransfers_fst (f : List Byte) : (txTransfers f).map Prod.fst = f := by
  induction f using txTransfers.induct with
  | case1 => rfl
  | case2 b => rfl
  | case3 b c rest ih => rw [txTransfers, List.map_cons, ih]

/-- Only the transfer of the final byte is marked: the first of two or more is not, and the rest is the
same question one index lower. -/
theorem txTransfers_last (f : List Byte) : ∀ a, a < f.length →
    ((txTransfers f)[a]?).map Prod.snd = some (decide (a + 1 = f.length)) := by
  induction f using txTransfers.induct with
  | case1 => exact fun a ha => absurd ha (Nat.not_lt_zero a)
  | case2 b =>
    intro a ha
    obtain rfl : a = 0 := Nat.lt_one_iff.mp ha
    rfl
  | case3 b c rest ih =>
    intro a ha
    cases a with
    | zero => simp [txTransfers]
    | succ a => simpa [txTransfers] using ih a (Nat.lt_of_succ_lt_succ ha)

/-- Settles O55. -/
theorem lastTransferIsMarked : Obligations.LastTransferIsMarked := fun f =>
  ⟨txTransfers_fst f, txTransfers_last f⟩

/-! ### The event port (R45) -/

/-- The number of an event's signal, in the order R45 lists them. -/
def Diagnostic.signal : Diagnostic → Fin 7
  | .overflow => 0
  | .lengthTooLarge => 1
  | .malformed => 2
  | .lengthMismatch _ => 3
  | .checksumFailed _ => 4
  | .unknownCommand _ => 5
  | .storageOpenFailure _ => 6

theorem port_signals (e : Diagnostic) : e.port.signals = 1#7 <<< e.signal.val := by
  cases e <;> rfl

theorem port_bit (e : Diagnostic) (k : Fin 7) :
    e.port.signals.getLsbD k.val = true ↔ k = e.signal := by
  rw [port_signals, getLsbD_oneHot e.signal.isLt, Fin.ext_iff]

/-- The port shows the first event raised since the state before. -/
theorem eventPort_append {s t : State} {e : Diagnostic} (h : t.events = s.events ++ [e]) :
    eventPort s t = e.port := by
  rw [eventPort, h, List.drop_left]

theorem eventPort_idle {s t : State} (h : t.events = s.events) : eventPort s t = .idle := by
  rw [eventPort, h, List.drop_length]

/-- Settles O58: the port by `eventPort_idle` and `eventPort_append`, its signals by `port_bit`, one case
per event. -/
theorem eventPortShowsTheEvent : Obligations.EventPortShowsTheEvent := by
  refine ⟨fun s t _ => ⟨eventPort_idle, fun e => eventPort_append⟩, rfl, fun e k => ?_⟩
  rw [port_bit]
  cases e <;> simp [Diagnostic.signal, Diagnostic.port]

end Sys2Proof.Machine
end

section
/-! SUPPORT. The decoder on encoded requests: VALIDATE undoes the frame, the command map the command
byte (30_encoding.md R90, 41_validator.md R156, R161). -/

namespace Sys2Proof

/-- VALIDATE accepts a frame whose payload length fits the length byte, and gives its command byte and
payload back (R161). -/
theorem validate_frame {cfg : Config} (hover : cfg.overhead = 5) (c : Byte) {p : List Byte}
    (hp : p.length ≤ 255) : validate cfg (frame cfg c p) = .ok (c, p) := by
  have hlast := getLast?_frame cfg c p
  have hsize := length_frame cfg c p
  have hdeclared := toNat_length_byte p hp
  unfold frame at hlast hsize ⊢
  simp only [validate, hover, hlast, hsize, hdeclared]
  simp

/-- A command byte outside the command map selects UNKNOWN (R174). -/
theorem instrOf_unassigned {cfg : Config} {c : Byte} (p : List Byte) (h : c ∉ cfg.commandCodes) :
    instrOf cfg c p = .unknown c p := by
  simp only [Config.commandCodes, Config.handledCodes, List.cons_append, List.nil_append,
    List.mem_cons, List.not_mem_nil, or_false, not_or] at h
  simp [instrOf, h]

/-- The command map reads back the row and the payload of a well-formed request: no two rows share a
code, and an UNKNOWN has none of theirs (R90, R91). -/
theorem instrOf_code_payload {cfg : Config} {i : Instr} (legal : cfg.Legal)
    (hreq : i.isRequest = true) (wf : i.wellFormed cfg = true) :
    instrOf cfg (i.code cfg) (i.payload cfg) = i := by
  have hcodes := legal.commandCodes
  simp only [Config.commandCodes, Config.handledCodes, List.cons_append, List.nil_append,
    List.nodup_cons, List.mem_cons, List.not_mem_nil, or_false, not_or] at hcodes
  cases i with
  | netConnect _ | netPassword _ | netConfirm _ | fileStatus _ | xferStart _ | xferEnd _ | paramA _
  | paramB _ => simp [instrOf, Instr.code, Instr.payload, hcodes, eq_comm]
  | unknown code ignored =>
    simp only [Instr.wellFormed, Bool.and_eq_true, Bool.not_eq_true', List.contains_eq_mem,
      decide_eq_false_iff_not] at wf
    exact instrOf_unassigned ignored wf.2
  | success _ | errLen _ | errCksum _ | joinStatus _ | fileStatusReply _ => cases hreq

/-- The payload of a well-formed request fits a received frame (R85). -/
theorem fitsRx_payload {cfg : Config} {i : Instr} (hreq : i.isRequest = true)
    (wf : i.wellFormed cfg = true) : cfg.fitsRx (i.payload cfg).length := by
  cases i with
  | netConnect _ | netPassword _ | netConfirm _ | fileStatus _ | xferStart _ | xferEnd _ | paramA _
  | paramB _ => exact of_decide_eq_true wf
  | unknown _ _ => exact of_decide_eq_true (Bool.and_eq_true_iff.mp wf).1
  | success _ | errLen _ | errCksum _ | joinStatus _ | fileStatusReply _ => cases hreq

/-- Decoding undoes encoding on well-formed requests. -/
theorem decode_encode {cfg : Config} {i : Instr} (legal : cfg.Legal) (hreq : i.isRequest = true)
    (wf : i.wellFormed cfg = true) : decode cfg (encode cfg i) = .ok i := by
  have hbyte := legal.fitsRx_byte (fitsRx_payload hreq wf)
  rw [decode, encode, validate_frame legal.overhead _ hbyte]
  exact congrArg Except.ok (instrOf_code_payload legal hreq wf)

end Sys2Proof
end

section
/-! SUPPORT. ENGINE_STEP on a receive byte (42_dispatcher.md R170): what runs for the frame that the byte
completes. -/

namespace Sys2Proof.Machine

/-- A command turn with a byte to take is an ENGINE_STEP on that byte (R52, R62). -/
theorem step_eq_engineStep {s : State} {b : Byte} {rest : List Byte} (ht : nextTurn s = .command)
    (hr : s.rxStream = b :: rest) : step s = engineStep b (byteTaken s rest) := by
  simp only [step, takeTurn, serve, ht, hr]

/-! ### What is run for each answer of the decoder -/

section RunFrame

variable {s : State} {raw : List Byte}

theorem runFrame_decoded {i : Instr} (h : decode s.cfg raw = .ok i) : runFrame raw s = exec i s := by
  simp only [runFrame, instrOfFrame, h]

theorem runFrame_malformed (h : decode s.cfg raw = .error .malformed) :
    runFrame raw s = .next (s.emit .malformed) := by
  simp only [runFrame, instrOfFrame, h]
  exact takeCondition_silent rfl

theorem runFrame_lengthMismatch {c : Byte} (h : decode s.cfg raw = .error (.lengthMismatch c)) :
    runFrame raw s = exec (.errLen c) s := by
  simp only [runFrame, instrOfFrame, h]

theorem runFrame_checksumFailed {c : Byte} (h : decode s.cfg raw = .error (.checksumFailed c)) :
    runFrame raw s = exec (.errCksum c) s := by
  simp only [runFrame, instrOfFrame, h]

end RunFrame

/-- Settles O20: the two ways an ENGINE_STEP can go, and for a completed frame one rule per answer of the
decoder. The state in which it runs is `(s.append b).resetReassembly` with the byte taken. -/
theorem stepRunsTheDecodedInstruction : Obligations.StepRunsTheDecodedInstruction := by
  intro s b rest ht hr taken received
  rw [step_eq_engineStep ht hr]
  rcases engineStep_cases b (byteTaken s rest) with ⟨raw, hc, hrun⟩ | ⟨hnone, hfeed⟩
  · refine ⟨fun raw' hc' => ?_, fun hnone => absurd hc (hnone raw)⟩
    obtain rfl : raw = raw' := FrameEvent.complete.inj (hc.symm.trans hc')
    have hrun : engineStep b (byteTaken s rest) = runFrame raw received := hrun
    rw [hrun]
    exact ⟨rfl, fun _ => runFrame_decoded (s := received), runFrame_malformed (s := received),
      fun _ => runFrame_lengthMismatch (s := received),
      fun _ => runFrame_checksumFailed (s := received)⟩
  · exact ⟨fun raw hc => absurd hc (hnone raw), fun _ => hfeed⟩

end Sys2Proof.Machine
end

section
/-! SUPPORT. Reception of a whole candidate frame, byte by byte (40_reassembler.md R121 to R126): a
simulation whose states are those with a part of the frame in flight. -/

namespace Sys2Proof.Machine

/-- What the framer asks of a byte sequence to deliver it whole: the header first, and a third byte that
declares its length, within the receive buffer (R85, R121, R125). -/
structure Deliverable (cfg : Config) (raw : List Byte) : Prop where
  header : raw[0]? = some cfg.header
  declared : ∃ n : Byte, raw[2]? = some n ∧ n.toNat + cfg.overhead = raw.length
  fits : raw.length ≤ cfg.rxCapacity

/-- The frame of a payload that fits the receive buffer is deliverable. -/
theorem deliverable_frame {cfg : Config} (legal : cfg.Legal) (c : Byte) {p : List Byte}
    (hp : cfg.fitsRx p.length) : Deliverable cfg (frame cfg c p) where
  header := rfl
  declared := ⟨_, rfl, by
    rw [toNat_length_byte p (legal.fitsRx_byte hp), legal.overhead, length_frame]⟩
  fits := by
    rw [length_frame, ← legal.overhead]
    exact hp

theorem Deliverable.three_le {cfg : Config} {raw : List Byte} (h : Deliverable cfg raw) :
    3 ≤ raw.length := by
  obtain ⟨n, hn, -⟩ := h.declared
  obtain ⟨hlt, -⟩ := List.getElem?_eq_some_iff.mp hn
  exact hlt

/-- The length that the framer knows of a frame once `n` of its bytes are stored (R23, R125). -/
def lengthKnownOf (raw : List Byte) (n : Nat) : Nat := if n < 3 then 0 else raw.length

/-- `s` with a part of the frame `raw` in flight: `got` is stored, `coming` is still to be received. -/
def inFlight (s : State) (raw got coming : List Byte) : State :=
  { s with
    rxStream := coming
    rxBuf := s.rxBuf.store 0 got
    writeIndex := got.length
    expectedLength := lengthKnownOf raw got.length }

/-- `s` with the frame `raw` consumed and held in the receive buffer, and the framer Seeking. -/
def delivered (s : State) (raw rest : List Byte) : State :=
  { s with rxStream := rest, rxBuf := s.rxBuf.store 0 raw, writeIndex := 0, expectedLength := 0 }

/-- Past the capacity check a byte of a frame in flight is appended and the completion test made, unless
it declares a length that is too large (R123 to R126). -/
theorem feed_append {b : Byte} {s : State} (h0 : s.writeIndex ≠ 0)
    (hlt : s.writeIndex < s.cfg.rxCapacity)
    (hfit : s.writeIndex = 2 → b.toNat + s.cfg.overhead ≤ s.cfg.rxCapacity) :
    feed b s = complete? { s.append b with expectedLength := lengthAfter b s } := by
  rw [← extractLength_append b s hfit, feed, if_neg h0, if_neg (by omega)]

/-- Storing one more byte behind those stored. -/
theorem write_store_end (m : Memory) (bytes : List Byte) (b : Byte) :
    (m.store 0 bytes).write bytes.length b = m.store 0 (bytes ++ [b]) := by
  rw [store_append, Nat.zero_add]
  rfl

section Reception

variable {s : State} {raw got todo rest : List Byte} {b : Byte}

/-- The length byte of a deliverable frame declares the frame's length. -/
theorem Deliverable.declared_at {cfg : Config} (h : Deliverable cfg raw) (hraw : raw = got ++ b :: todo)
    (h2 : got.length = 2) : b.toNat + cfg.overhead = raw.length := by
  obtain ⟨n, hn, hlen⟩ := h.declared
  rw [hraw, List.getElem?_append_right h2.le, h2] at hn
  obtain rfl : b = n := Option.some.inj hn
  exact hlen

/-- In flight, the completion test sees the length known once the next byte is stored. -/
theorem lengthAfter_inFlight (h : Deliverable s.cfg raw) (hraw : raw = got ++ b :: todo)
    (coming : List Byte) :
    lengthAfter b (inFlight s raw got coming) = lengthKnownOf raw (got.length + 1) := by
  by_cases h2 : got.length = 2
  · calc lengthAfter b (inFlight s raw got coming)
      _ = b.toNat + s.cfg.overhead := if_pos h2
      _ = raw.length := h.declared_at hraw h2
      _ = lengthKnownOf raw (got.length + 1) := (if_neg (by omega)).symm
  · calc lengthAfter b (inFlight s raw got coming)
      _ = lengthKnownOf raw got.length := if_neg h2
      _ = lengthKnownOf raw (got.length + 1) := by
        unfold lengthKnownOf
        split <;> split <;> omega

/-- A byte of a frame in flight is stored, and the completion test is made on the longer part. -/
theorem feed_inFlight (h : Deliverable s.cfg raw) (hraw : raw = got ++ b :: todo) (hgot : got ≠ [])
    (coming : List Byte) :
    feed b (inFlight s raw got coming) = complete? (inFlight s raw (got ++ [b]) coming) := by
  have hlen : raw.length = got.length + (todo.length + 1) := by
    rw [hraw, List.length_append, List.length_cons]
  have hfits := h.fits
  rw [feed_append (s := inFlight s raw got coming) (fun h0 => hgot (List.length_eq_zero_iff.mp h0))
    (show got.length < s.cfg.rxCapacity by omega)
    (fun h2 => (h.declared_at hraw h2).trans_le hfits), lengthAfter_inFlight h hraw]
  congr 1
  simp [inFlight, State.append, write_store_end]

/-- Before its last byte a frame is not complete. -/
theorem complete?_inFlight (hraw : raw = got ++ todo) (htodo : todo ≠ []) (coming : List Byte) :
    complete? (inFlight s raw got coming) = (.none, inFlight s raw got coming) := by
  refine complete?_no _ ?_
  have hpos := List.length_pos_of_ne_nil htodo
  have hlen : raw.length = got.length + todo.length := by rw [hraw, List.length_append]
  show lengthKnownOf raw got.length = 0 ∨ got.length ≠ lengthKnownOf raw got.length
  unfold lengthKnownOf
  split
  · exact .inl rfl
  · exact .inr (by omega)

/-- With its last byte a frame is complete, and the framer is Seeking again. -/
theorem complete?_inFlight_all (hsize : 3 ≤ raw.length) (coming : List Byte) :
    complete? (inFlight s raw raw coming) = (.complete raw, delivered s raw coming) := by
  have hknown : lengthKnownOf raw raw.length = raw.length := if_neg (by omega)
  rw [complete?_yes _ (show lengthKnownOf raw raw.length ≠ 0 by omega) hknown.symm]
  exact Prod.ext (congrArg FrameEvent.complete (slice_store _ _)) rfl

/-- In port order a step takes the next receive byte (R42). -/
theorem step_port (hport : s.schedule = []) (hr : s.rxStream = b :: rest) :
    step s = engineStep b { s with rxStream := rest } := by
  have ht : nextTurn s = .command := by simp only [nextTurn, portTurn, hport, hr]
  rw [step_eq_engineStep ht hr]
  obtain ⟨⟩ := s
  cases hport
  rfl

/-- The rest of a frame in flight, received in port order: every byte but the last is stored, and the
last runs the whole frame. -/
theorem runFor_inFlight (h : Deliverable s.cfg raw) (hport : s.schedule = []) :
    ∀ (todo got : List Byte), raw = got ++ todo → got ≠ [] → todo ≠ [] →
      runFor todo.length (inFlight s raw got (todo ++ rest)) = runFrame raw (delivered s raw rest) := by
  intro todo
  induction todo with
  | nil => exact fun _ _ _ hne => absurd rfl hne
  | cons b todo ih =>
    intro got hraw hgot _
    have hstep : step (inFlight s raw got (b :: todo ++ rest)) =
        afterFeed (complete? (inFlight s raw (got ++ [b]) (todo ++ rest))) := by
      rw [← feed_inFlight h hraw hgot]
      exact step_port hport rfl
    have hraw' : raw = (got ++ [b]) ++ todo := by rw [hraw, List.append_assoc]; rfl
    cases todo with
    | nil =>
      obtain rfl : raw = got ++ [b] := by simpa using hraw'
      rw [complete?_inFlight_all h.three_le] at hstep
      exact (runFor_one _).trans hstep
    | cons c todo =>
      rw [complete?_inFlight hraw' (List.cons_ne_nil c todo)] at hstep
      rw [List.length_cons, runFor_succ_next hstep]
      exact ih _ hraw' (by simp) (List.cons_ne_nil c todo)

/-- A deliverable frame at the head of the receive stream of a Seeking engine, received in port order, is
run when its last byte arrives, in the state where it has been delivered. -/
theorem runFor_deliverable (h : Deliverable s.cfg raw) (hseek : s.seeking) (hport : s.schedule = [])
    (hr : s.rxStream = raw ++ rest) :
    runFor raw.length s = runFrame raw (delivered s raw rest) := by
  have hsize := h.three_le
  match raw, h.header with
  | first :: todo, hfirst =>
    obtain rfl : first = s.cfg.header := Option.some.inj hfirst
    have hstep : step s = .next (inFlight s (s.cfg.header :: todo) [s.cfg.header] (todo ++ rest)) := by
      rw [step_port hport hr, engineStep, feed, if_pos hseek, if_pos rfl]
      rfl
    rw [List.length_cons, runFor_succ_next hstep]
    refine runFor_inFlight h hport todo [s.cfg.header] rfl (List.cons_ne_nil _ _) ?_
    rintro rfl
    simp at hsize

end Reception

/-- Settles O21: the frame is delivered by `runFor_deliverable`, and read back by `decode_encode`. -/
theorem receivingAFrameExecutesItsRequest : Obligations.ReceivingAFrameExecutesItsRequest := by
  intro s i rest legal hseek hport hreq wf hr
  have hframe : Deliverable s.cfg (encode s.cfg i) :=
    deliverable_frame legal (i.code s.cfg) (fitsRx_payload hreq wf)
  have hdecode : decode (delivered s (encode s.cfg i) rest).cfg (encode s.cfg i) = .ok i :=
    decode_encode legal hreq wf
  rw [runFor_deliverable hframe hseek hport hr, runFrame_decoded hdecode]
  unfold delivered
  rw [← show s.writeIndex = 0 from hseek]

end Sys2Proof.Machine
end

section
/-! SUPPORT. The encodings of 30_encoding.md: the byte sequences the decoder accepts (R90), how a peer
reads a sent form (R94), the rows of the opcode table (R106), and the checksum (R87). -/

namespace Sys2Proof

/-! ### What the decoder accepts -/

/-- Settles O1, by `decode_encode`. -/
theorem decodeEncodeRequests : Obligations.DecodeEncodeRequests := fun _ _ legal hreq wf =>
  decode_encode legal hreq wf

@[simp] theorem encode_instrOf (cfg : Config) (c : Byte) (p : List Byte) :
    encode cfg (instrOf cfg c p) = frame cfg c p := by
  rw [encode, code_instrOf, payload_instrOf]

/-- The decoder accepts frames only, and answers what the command map makes of one (R156, R173). -/
theorem decode_ok {cfg : Config} (hover : cfg.overhead = 5) {raw : List Byte} {i : Instr}
    (h : decode cfg raw = .ok i) : ∃ c p, raw = frame cfg c p ∧ i = instrOf cfg c p := by
  unfold decode at h
  split at h
  · rename_i c p hv
    exact ⟨c, p, (validate_ok cfg hover raw c p hv).2, (Except.ok.inj h).symm⟩
  · cases h

/-- Settles O2: the accepted sequence is a frame by `decode_ok`, and the command map keeps its command
byte and its payload. -/
theorem decodedBytesAreTheRequestsFrame : Obligations.DecodedBytesAreTheRequestsFrame := by
  intro cfg raw i legal h
  obtain ⟨c, p, rfl, rfl⟩ := decode_ok legal.overhead h
  refine ⟨encode_instrOf cfg c p, isRequest_instrOf cfg c p, fun hlen => ?_⟩
  rw [length_frame, ← legal.overhead] at hlen
  exact Machine.wellFormed_instrOf hlen

/-- Settles O6: the decoder runs on each of the five sequences. -/
theorem writtenFramesDecode : Obligations.WrittenFramesDecode := ⟨rfl, rfl, rfl, rfl, rfl⟩

/-! ### The sent forms -/

/-- A well-formed sent form is one of the readings of its own command byte and payload (R94). -/
theorem mem_sentReadings {cfg : Config} {g : Instr} (hg : g.isRequest = false)
    (wf : g.wellFormed cfg = true) : g ∈ sentReadings cfg (g.code cfg) (g.payload cfg) := by
  cases g with
  | success code =>
    have hcode : code ∈ cfg.successCodes := List.contains_iff_mem.mp wf
    simp [sentReadings, Instr.code, Instr.payload, hcode]
  | errLen _ | errCksum _ | joinStatus _ => simp [sentReadings, Instr.code, Instr.payload]
  | fileStatusReply record =>
    simp only [Instr.wellFormed, Bool.and_eq_true, beq_iff_eq] at wf
    simp [sentReadings, Instr.code, Instr.payload, wf]
  | netConnect _ | netPassword _ | netConfirm _ | fileStatus _ | xferStart _ | xferEnd _
  | paramA _ | paramB _ | unknown _ _ => cases hg

/-- Settles O3: a sent form fits the transmit buffer, so its length fits the length byte and VALIDATE
gives its command byte and payload back, of which it is a reading. -/
theorem sentFormsAreReadBack : Obligations.SentFormsAreReadBack := by
  intro cfg g legal hg wf
  have hbyte := legal.fitsTx_byte (Machine.fitsTx_sentForm legal hg wf)
  refine ⟨sentReadings cfg (g.code cfg) (g.payload cfg), ?_, mem_sentReadings hg wf⟩
  rw [decodeSent, encode, validate_frame legal.overhead _ hbyte]

/-- Settles O10: the two forms of each pair have the same command byte and the same payload. -/
theorem joinStatusCanReadAsAnotherForm : Obligations.JoinStatusCanReadAsAnotherForm := fun _ =>
  ⟨rfl, rfl, rfl⟩

/-! ### The opcode table -/

/-- A row of two bytes matches the first two bytes of a frame byte by byte (R106). -/
theorem append_and_eq_append (b c m n hi lo : Byte) :
    (b ++ c) &&& (m ++ n) = hi ++ lo ↔ b &&& m = hi ∧ c &&& n = lo := by
  rw [BitVec.and_append]
  refine ⟨fun h => ⟨?_, ?_⟩, fun ⟨hhi, hlo⟩ => by rw [hhi, hlo]⟩
  · simpa only [BitVec.extractLsb'_append_eq_left] using congrArg (BitVec.extractLsb' 8 8) h
  · simpa only [BitVec.extractLsb'_append_eq_right] using congrArg (BitVec.extractLsb' 0 8) h

theorem and_fullMask (x : Byte) : x &&& 0xFF#8 = x := BitVec.and_allOnes

/-- The rows that select one command byte, by mnemonic and command byte. -/
def assignedRows : List (String × Byte) :=
  [("NET_CONNECT", 0x10#8), ("NET_PASSWORD", 0x11#8), ("NET_CONFIRM", 0x12#8),
    ("FILE_STATUS", 0x13#8), ("XFER_START", 0x14#8), ("XFER_END", 0x15#8), ("PARAM_A", 0x16#8),
    ("PARAM_B", 0x17#8)]

/-- The request rows in two bytes each: the header, then the command byte or, in the last row, none. -/
theorem requestRows_eq : requestRows =
    assignedRows.map (fun row => ⟨row.1, 0xA5#8 ++ row.2, 0xFF#8 ++ 0xFF#8⟩) ++
      [⟨"UNKNOWN", 0xA5#8 ++ 0x00#8, 0xFF#8 ++ 0x00#8⟩] := rfl

/-- A row with a full mask matches its own two bytes. -/
theorem matches_assigned (b c code : Byte) :
    ((b ++ c) &&& (0xFF#8 ++ 0xFF#8) == 0xA5#8 ++ code) = (b == 0xA5#8 && c == code) := by
  rw [Bool.eq_iff_iff]
  simp only [Bool.and_eq_true, beq_iff_eq, append_and_eq_append, and_fullMask]

/-- The last row matches the header and any second byte. -/
theorem matches_unknown (b c : Byte) :
    ((b ++ c) &&& (0xFF#8 ++ 0x00#8) == 0xA5#8 ++ 0x00#8) = (b == 0xA5#8) := by
  rw [Bool.eq_iff_iff]
  simp only [beq_iff_eq, append_and_eq_append, and_fullMask, BitVec.and_zero, and_true]

/-- The row that a frame's first two bytes select: none without the header, else the row of the command
byte, and UNKNOWN where there is none (R106). -/
theorem selectRow_eq (b c : Byte) : selectRow b c =
    if b = 0xA5#8 then
      some (((assignedRows.find? fun row => c == row.2).map (·.1)).getD "UNKNOWN")
    else none := by
  simp only [selectRow, requestRows_eq, List.find?_append, List.find?_map, Function.comp_def,
    matches_assigned, List.find?_singleton, matches_unknown]
  by_cases hb : b = 0xA5#8
  · cases h : assignedRows.find? fun row => c == row.2 <;> simp [hb, h]
  · simp [hb]

/-- The command map and the table name the same row for every command byte (R106, R173). -/
theorem mnemonic_instrOf (c : Byte) (p : List Byte) : (instrOf .standard c p).mnemonic =
    ((assignedRows.find? fun row => c == row.2).map (·.1)).getD "UNKNOWN" := by
  unfold instrOf
  repeat' split
  all_goals simp_all [assignedRows, Config.standard, Instr.mnemonic]

/-- Settles O7: `selectRow_eq` says which row is selected, `mnemonic_instrOf` that it is the request's. -/
theorem opcodeRowsSelectTheRequest : Obligations.OpcodeRowsSelectTheRequest := by
  intro b c p
  rw [selectRow_eq, mnemonic_instrOf]
  exact ⟨fun hb => if_pos hb, fun hb => if_neg hb⟩

/-! ### The checksum -/

/-- The checksum is a sum, so it does not see the order of the bytes (R87). -/
theorem sum8_perm {p q : List Byte} (h : p.Perm q) : sum8 p = sum8 q := by
  unfold sum8
  rw [(h.map BitVec.toNat).sum_eq]

/-- Settles O9: the reordered sequence is the frame of the reordered payload. -/
theorem checksumIgnoresByteOrder : Obligations.ChecksumIgnoresByteOrder := by
  intro cfg c p q legal hp hperm
  refine ⟨sum8_perm hperm, ?_⟩
  rw [sum8_perm hperm, hperm.length_eq]
  exact validate_frame legal.overhead c (hperm.length_eq ▸ hp)

end Sys2Proof
end

section
/-! SUPPORT. The status record (30_encoding.md R100 to R102) and what the sent forms do (R94). -/

namespace Sys2Proof.Machine

/-! ### The name field -/

theorem fieldOf_eq {cfg : Config} (legal : cfg.Legal) (name : List Byte) :
    fieldOf cfg name = name.take 15 ++ List.replicate (16 - min name.length 15) 0x00#8 := by
  rw [fieldOf, pad0, legal.nameFieldLen, legal.nameVisibleMax, List.length_take, Nat.min_comm]

/-- Settles O50: a name field is the bytes kept and the padding behind them. -/
theorem nameFieldLayout : Obligations.NameFieldLayout := by
  intro cfg name legal
  have hkept : (name.take 15).length = min name.length 15 := by rw [List.length_take, Nat.min_comm]
  refine ⟨(nameField_fieldOf legal name).1, ?_, fun a hlo hhi => ?_⟩
  · rw [fieldOf_eq legal, ← hkept, List.take_left]
  · rw [fieldOf_eq legal, List.getElem?_append_right (by omega), hkept,
      List.getElem?_replicate, if_pos (by omega)]
    rfl

/-! ### The status record -/

/-- The field that lies behind `before`. -/
theorem field_of_eq_append {record before field after : List Byte} {a n : Nat}
    (h : record = before ++ field ++ after) (ha : before.length = a) (hn : field.length = n) :
    (record.drop a).take n = field := by
  rw [h, List.append_assoc, List.drop_left' ha, List.take_left' hn]

/-- Settles O51: each field by what lies before it; STATUS_LEN cuts the last one short. -/
theorem statusRecordLayout : Obligations.StatusRecordLayout := by
  intro n m body border hbody hborder r
  have hr : r = le32 n ++ [0, 0, 0, 0] ++ body ++ le32 m ++ [0, 0, 0, 0] ++ border := by
    simp [r, statusRecord, List.replicate]
  have hlen : r.length = 48 := by simp [hr, le32, hbody, hborder]
  have hlast : (r.drop 32).take 16 = border :=
    field_of_eq_append (before := le32 n ++ [0, 0, 0, 0] ++ body ++ le32 m ++ [0, 0, 0, 0])
      (after := []) (by simp [hr]) (by simp [le32, hbody]) hborder
  refine ⟨hlen, ?_, ?_, ?_, ?_, ?_, hlast, ?_⟩
  · rw [hr]
    rfl
  · exact field_of_eq_append (before := le32 n)
      (after := body ++ le32 m ++ [0, 0, 0, 0] ++ border) (by simp [hr]) rfl rfl
  · exact field_of_eq_append (before := le32 n ++ [0, 0, 0, 0])
      (after := le32 m ++ [0, 0, 0, 0] ++ border) (by simp [hr]) rfl hbody
  · exact field_of_eq_append (before := le32 n ++ [0, 0, 0, 0] ++ body)
      (after := [0, 0, 0, 0] ++ border) (by simp [hr]) (by simp [le32, hbody]) rfl
  · exact field_of_eq_append (before := le32 n ++ [0, 0, 0, 0] ++ body ++ le32 m)
      (after := border) (by simp [hr]) (by simp [le32, hbody]) rfl
  · rw [List.drop_take, ← hlast, List.take_take]
    rfl

/-- Settles O28: the two cases of `total_cases` exclude each other. -/
theorem countIsZeroOrTheAnswer : Obligations.CountIsZeroOrTheAnswer := by
  intro s k
  rcases total_cases k s with ⟨hempty, h⟩ | ⟨hname, h⟩
  · exact ⟨fun _ => h, fun hname => absurd hempty hname⟩
  · exact ⟨fun hempty => absurd hempty hname, fun _ => h⟩

theorem SameDispatcherState.trans {s t u : State} (h : SameDispatcherState s t)
    (h' : SameDispatcherState t u) : SameDispatcherState s u := by
  obtain ⟨hpending, hsession, hbody, hborder⟩ := h
  obtain ⟨hpending', hsession', hbody', hborder'⟩ := h'
  exact ⟨hpending'.trans hpending, hsession'.trans hsession, hbody'.trans hbody,
    hborder'.trans hborder⟩

/-- Counting leaves the configuration and the dispatcher's state alone (R200). -/
theorem total_same (k : Category) (s : State) :
    (total k s).2.cfg = s.cfg ∧ SameDispatcherState s (total k s).2 := by
  rcases total_effect k s with h | ⟨name, n, h⟩ <;> rw [h] <;> exact ⟨rfl, rfl, rfl, rfl, rfl⟩

/-- Settles O29: the first STATUS_LEN bytes of the record fit the transmit buffer of a legal
configuration, and neither count touches the dispatcher's state. -/
theorem fileStatusSendsTheRecord : Obligations.FileStatusSendsTheRecord := by
  intro s ignored legal _ body border record
  obtain ⟨hbody, hsame⟩ := total_same .body s
  obtain ⟨hborder, hsame'⟩ := total_same .border body.2
  have hcfg : border.2.cfg = s.cfg := hborder.trans hbody
  have hfits : border.2.cfg.fitsTx (record.take s.cfg.statusLen).length := by
    have hover := legal.overhead
    have hlow := legal.txLower
    have hle := List.length_take_le s.cfg.statusLen record
    rw [hcfg, Config.fitsTx]
    omega
  refine ⟨?_, hsame.trans hsame'⟩
  calc exec (.fileStatus ignored) s
    _ = reply s.cfg.cmdFileStatus (record.take s.cfg.statusLen) border.2 := rfl
    _ = .next (border.2.txSend (frame border.2.cfg s.cfg.cmdFileStatus
          (record.take s.cfg.statusLen))) := reply_of_fits hfits
    _ = .next (border.2.txSend (frame s.cfg s.cfg.cmdFileStatus
          (record.take s.cfg.statusLen))) := by rw [hcfg]

/-! ### The sent forms -/

/-- Settles O36: each is a one-byte reply, of an error form after its event. -/
theorem shortSentFormsAreSent : Obligations.ShortSentFormsAreSent := fun s c _ legal =>
  ⟨reply_short legal, reply_short (s := s.emit (.lengthMismatch c)) legal,
    reply_short (s := s.emit (.checksumFailed c)) legal, reply_short legal⟩

/-- A payload over the transmit bound faults (R233). -/
theorem reply_of_not_fits {code : Byte} {payload : List Byte} {s : State}
    (h : ¬ s.cfg.fitsTx payload.length) :
    reply code payload s = .fault (.replyTooLong payload.length) := by
  simp [reply, h]

/-- Settles O37: the two bounds are those of `Config.fitsTx`, the overhead being 5. -/
theorem statusReplyIsSentWithinTheBound : Obligations.StatusReplyIsSentWithinTheBound := by
  intro s record legal
  rw [← legal.overhead]
  exact ⟨reply_of_fits, fun h => reply_of_not_fits (Nat.not_le.mpr h)⟩

end Sys2Proof.Machine
end

section
/-! SUPPORT. What a step sends (30_encoding.md R92, R94, 42_dispatcher.md R177). -/

namespace Sys2Proof.Machine

/-- What a well-formed instruction sends: nothing, or one well-formed sent form with its own command
byte. -/
theorem EngineInv.exec_answer {i : Instr} {s t : State} (inv : EngineInv s)
    (wf : i.wellFormed s.cfg = true) (h : Machine.exec i s = .next t) :
    t.transmitted = s.transmitted ∨
      ∃ g : Instr, g.isRequest = false ∧ g.wellFormed s.cfg = true ∧
        t.transmitted = s.transmitted ++ [encode s.cfg g] ∧ g.code s.cfg = i.code s.cfg := by
  obtain ⟨u, eff, rfl | ⟨p, -, ⟨g, hg, hcode, rfl, hwf⟩, rfl⟩⟩ := exec_next h
  · exact .inl eff.transmitted
  · refine .inr ⟨g, hg, hwf inv.legal inv.shapes.lastNameBody inv.shapes.lastNameBorder fun _ => wf,
      ?_, hcode⟩
    rw [txSend_transmitted, eff.transmitted, encode, hcode]

/-- Settles O47: only the execution of `nextInstr` sends, and `EngineInv.exec_answer` says what. -/
theorem oneAnswerEchoingTheCommand : Obligations.OneAnswerEchoingTheCommand := by
  intro s t inv h
  rcases step_next h with ⟨-, -, rfl⟩ | ⟨n, -, rfl⟩ | ⟨b, rest, -, -, hb⟩
  · exact .inl rfl
  · rw [writeChunk_eq]
    exact .inl rfl
  have hfed : (byteFed s b rest).transmitted = s.transmitted :=
    (feed_framerEffect b (byteTaken s rest)).transmitted
  rcases hb with rfl | rfl | ⟨i, hi, he⟩
  · exact .inl hfed
  · exact .inl hfed
  · have wf := wellFormed_nextInstr inv.legal hi
    have answer := (inv.byteFed b rest).exec_answer (by rwa [byteFed_cfg]) he
    rw [byteFed_cfg, hfed] at answer
    exact answer.imp_right fun ⟨g, hg, hwf, hsent, hcode⟩ => ⟨i, g, hi, hg, hwf, hsent, hcode⟩

end Sys2Proof.Machine
end

section
/-! SUPPORT. FEED row by row (40_reassembler.md R135): an equation for each row of the transition table,
what a FEED stores, and the registers it leaves. -/

namespace Sys2Proof.Machine

/-! ### An equation for each outcome (R121 to R126) -/

section Rows

variable {b : Byte} {s : State}

theorem feed_discard (h0 : s.writeIndex = 0) (hb : b ≠ s.cfg.header) : feed b s = (.none, s) := by
  rw [feed, if_pos h0, if_neg hb]
  rfl

theorem feed_start (h0 : s.writeIndex = 0) (hb : b = s.cfg.header) :
    feed b s = (.none,
      { s with rxBuf := s.rxBuf.write 0 b, writeIndex := 1, expectedLength := 0 }) := by
  rw [feed, if_pos h0, if_pos hb]

theorem feed_full (h0 : s.writeIndex ≠ 0) (hfull : s.cfg.rxCapacity ≤ s.writeIndex) :
    feed b s = (.overflow, s.resetReassembly.emit .overflow) := by
  rw [feed, if_neg h0, if_pos hfull]
  rfl

theorem feed_tooLarge (h2 : s.writeIndex = 2) (hlt : s.writeIndex < s.cfg.rxCapacity)
    (hbig : s.cfg.rxCapacity < b.toNat + s.cfg.overhead) :
    feed b s = (.lengthTooLarge, (s.append b).resetReassembly.emit .lengthTooLarge) := by
  have h3 : (s.append b).writeIndex = 3 := by rw [append_writeIndex, h2]
  rw [feed, if_neg (show ¬s.seeking by omega), if_neg (by omega), extractLength, if_pos h3,
    declaredLength_append b s h2, if_pos (show (s.append b).cfg.rxCapacity < _ from hbig)]
  rfl

theorem feed_last (h0 : s.writeIndex ≠ 0) (hlt : s.writeIndex < s.cfg.rxCapacity)
    (hfit : s.writeIndex = 2 → b.toNat + s.cfg.overhead ≤ s.cfg.rxCapacity)
    (hend : s.writeIndex + 1 = lengthAfter b s) :
    feed b s = (.complete (s.rxBuf.slice s.writeIndex ++ [b]), (s.append b).resetReassembly) := by
  rw [feed_append h0 hlt hfit,
    complete?_yes _ (show lengthAfter b s ≠ 0 by omega) hend]
  exact Prod.ext (congrArg FrameEvent.complete (slice_write_end _ _ _)) rfl

theorem feed_open (h0 : s.writeIndex ≠ 0) (hlt : s.writeIndex < s.cfg.rxCapacity)
    (hfit : s.writeIndex = 2 → b.toNat + s.cfg.overhead ≤ s.cfg.rxCapacity)
    (hopen : lengthAfter b s = 0 ∨ s.writeIndex + 1 ≠ lengthAfter b s) :
    feed b s = (.none, { s.append b with expectedLength := lengthAfter b s }) := by
  rw [feed_append h0 hlt hfit, complete?_no _ hopen]

/-- The third byte declares the length, its frame's overhead included (R125). -/
theorem lengthAfter_third (h2 : s.writeIndex = 2) : lengthAfter b s = b.toNat + s.cfg.overhead :=
  if_pos h2

/-- Any other byte leaves the length as it is known or unknown. -/
theorem lengthAfter_other (h2 : s.writeIndex ≠ 2) : lengthAfter b s = s.expectedLength := if_neg h2

/-- What an equation for FEED says of the answer and the two registers. -/
theorem registers_of_eq {r : FrameEvent × State} {ev : FrameEvent} {t : State} {wi el : Nat}
    (h : r = (ev, t)) (hw : t.writeIndex = wi) (he : t.expectedLength = el) :
    r.1 = ev ∧ r.2.writeIndex = wi ∧ r.2.expectedLength = el := by
  subst h
  exact ⟨rfl, hw, he⟩

end Rows

/-- Settles O11: the two equations of a Seeking FEED. -/
theorem seekingDiscardsOrStartsAFrame : Obligations.SeekingDiscardsOrStartsAFrame := fun _ _ h0 =>
  ⟨feed_discard h0, feed_start h0⟩

/-- Settles O12: each row by the equation of its outcome, whose side conditions R25 gives. -/
theorem feedFollowsTheTransitionTable : Obligations.FeedFollowsTheTransitionTable := by
  intro s b legal
  have hcap := legal.rxLower
  have hover := legal.overhead
  dsimp only
  refine ⟨fun hfull => registers_of_eq (feed_full (by omega) hfull) rfl rfl,
    fun inv => ⟨fun h0 hb => ?_, fun h0 hb => ?_, fun h1 => ?_, fun h2 hbig => ?_,
      fun h2 hfit => ?_, fun h3 hend => ?_, fun h3 hopen => ?_⟩⟩
  · exact registers_of_eq (feed_discard h0 hb) h0 (inv.unknown (by omega))
  · exact registers_of_eq (feed_start h0 hb) rfl rfl
  · have hlen : lengthAfter b s = 0 :=
      (lengthAfter_other (by omega)).trans (inv.unknown (by omega))
    exact registers_of_eq (feed_open (by omega) inv.below (by omega) (.inl hlen))
      (congrArg (· + 1) h1) hlen
  · exact registers_of_eq (feed_tooLarge h2 inv.below (by omega)) rfl rfl
  · have hlen : lengthAfter b s = b.toNat + 5 := (lengthAfter_third h2).trans (by rw [hover])
    exact registers_of_eq (feed_open (by omega) inv.below (by omega) (.inr (by omega)))
      (congrArg (· + 1) h2) hlen
  · have hlen : lengthAfter b s = s.expectedLength := lengthAfter_other (by omega)
    exact registers_of_eq (feed_last (by omega) inv.below (by omega) (by omega)) rfl rfl
  · have hlen : lengthAfter b s = s.expectedLength := lengthAfter_other (by omega)
    exact registers_of_eq (feed_open (by omega) inv.below (by omega) (.inr (by omega))) rfl hlen

/-! ### What a FEED changes -/

/-- A byte that FEED does not store: one refused for want of room, or discarded while Seeking. -/
def Unstored (b : Byte) (s : State) : Prop :=
  (feed b s).1 = .overflow ∨ (s.writeIndex = 0 ∧ b ≠ s.cfg.header)

/-- A FEED writes the cell at `writeIndex`, or no cell (R121 to R123). -/
theorem feed_rxBuf (b : Byte) (s : State) :
    (Unstored b s ∧ (feed b s).2.rxBuf = s.rxBuf) ∨
    (¬Unstored b s ∧ (feed b s).2.rxBuf = s.rxBuf.write s.writeIndex b) := by
  unfold Unstored
  rcases feed_cases b s with ⟨h0, hb, hf⟩ | ⟨h0, hb, hf⟩ | ⟨h0, -, hf⟩ | ⟨h2, -, -, hf⟩ |
      ⟨h0, -, -, -, -, hf⟩ | ⟨h0, -, -, -, hf⟩ <;> rw [hf]
  · exact .inl ⟨.inr ⟨h0, hb⟩, rfl⟩
  · exact .inr ⟨by simp [hb], by rw [h0]⟩
  · exact .inl ⟨.inl rfl, rfl⟩
  · exact .inr ⟨by simp [h2], rfl⟩
  · exact .inr ⟨by simp [h0], rfl⟩
  · exact .inr ⟨by simp [h0], rfl⟩

/-- Besides the buffer and the registers, a FEED changes the events only, by those of its answer. -/
theorem feed_eq_with (b : Byte) (s : State) :
    (feed b s).2 = { s with
      rxBuf := (feed b s).2.rxBuf
      writeIndex := (feed b s).2.writeIndex
      expectedLength := (feed b s).2.expectedLength
      events := s.events ++ feedDiagnostics (feed b s).1 } := by
  rcases feed_cases b s with ⟨-, -, hf⟩ | ⟨-, -, hf⟩ | ⟨-, -, hf⟩ | ⟨-, -, -, hf⟩ |
      ⟨-, -, -, -, -, hf⟩ | ⟨-, -, -, -, hf⟩ <;>
    rw [hf] <;> simp only [feedDiagnostics, List.append_nil] <;> rfl

/-- Settles O13: the cell by `feed_rxBuf`, the rest by `feed_eq_with`. -/
theorem feedFrame : Obligations.FeedFrame := by
  intro s b
  refine ⟨fun a ha => ?_, fun hun => ?_, fun ⟨hroom, hkept⟩ => ?_, _, _, _, feed_eq_with b s⟩ <;>
    rcases feed_rxBuf b s with ⟨hun', hrx⟩ | ⟨hst, hrx⟩ <;> rw [hrx]
  · exact read?_write_other _ _ _ _ ha
  · exact absurd hun hst
  · exact absurd hun' (not_or.mpr ⟨hroom, hkept⟩)
  · exact read?_write_same _ _ _

end Sys2Proof.Machine
end

section
/-! SUPPORT. Sequences of bytes through the framer: completed frames (40_reassembler.md R133), garbage
(R136) and the account of every byte (R134). -/

namespace Sys2Proof.Machine

/-! ### Completed frames -/

/-- Under R25 only a byte behind the length byte completes a frame: the length is the known one. -/
theorem known_of_feed_complete {b : Byte} {s : State} {raw : List Byte} (inv : ReassemblyInv s)
    (legal : s.cfg.Legal) (h : (feed b s).1 = .complete raw) :
    3 ≤ s.writeIndex ∧ s.writeIndex + 1 = s.expectedLength ∧
      raw = s.rxBuf.slice s.writeIndex ++ [b] := by
  have hover := legal.overhead
  obtain ⟨-, -, -, hknown, hend, hraw, -⟩ := feed_complete h
  rcases Nat.lt_trichotomy s.writeIndex 2 with hw | hw | hw
  · have hlen := lengthAfter_other (b := b) (by omega : s.writeIndex ≠ 2)
    have hzero := inv.unknown (by omega)
    omega
  · have hlen := lengthAfter_third (b := b) hw
    omega
  · exact ⟨hw, hend.trans (lengthAfter_other (by omega)), hraw⟩

/-- Settles O14: the frame is the stored cells and the last byte, and R25 says what cells 0 and 2
hold. -/
theorem completedFramesHaveTheDeclaredShape : Obligations.CompletedFramesHaveTheDeclaredShape := by
  intro s b raw legal inv h
  obtain ⟨h3, hend, rfl⟩ := known_of_feed_complete inv legal h
  obtain ⟨hknown, hlow, hhigh, -⟩ := inv.known h3
  have stored (a : Nat) (ha : a < s.writeIndex) :
      (s.rxBuf.slice s.writeIndex ++ [b])[a]? = some (s.rxBuf.cell a) := by
    rw [List.getElem?_append_left (by rwa [length_slice]), slice_get? _ _ _ ha]
  have hsize : (s.rxBuf.slice s.writeIndex ++ [b]).length = s.expectedLength := by
    rw [List.length_append, length_slice, List.length_singleton, hend]
  rw [hsize]
  refine ⟨?_, hlow, hhigh, s.rxBuf.cell 2, stored 2 h3, hknown⟩
  rw [stored 0 (by omega), inv.header (by omega)]

/-- From a state of R25, every frame completed out of a sequence of bytes has the declared length. -/
theorem length_of_mem_feedAll {raw : List Byte} (bytes : List Byte) :
    ∀ s : State, s.cfg.Legal → ReassemblyInv s → .complete raw ∈ (feedAll bytes s).1 →
      ∃ n : Byte, raw[2]? = some n ∧ raw.length = n.toNat + 5 := by
  induction bytes with
  | nil => exact fun _ _ _ h => nomatch h
  | cons b rest ih =>
    intro s legal inv h
    rcases List.mem_cons.mp h with hnow | hlater
    · obtain ⟨-, -, -, hdeclared⟩ := completedFramesHaveTheDeclaredShape s b raw legal inv hnow.symm
      exact hdeclared
    · refine ih (feed b s).2 ?_ (inv.feed legal) hlater
      rwa [(feed_framerEffect b s).cfg]

/-! ### Garbage -/

/-- Settles O17: each byte is discarded, and leaves the state in which the next one is. -/
theorem headerFreeGarbageIsDiscarded : Obligations.HeaderFreeGarbageIsDiscarded := by
  intro s bytes hseek
  induction bytes with
  | nil => exact fun _ => rfl
  | cons b rest ih =>
    intro hfree
    have hnow : feed b s = (.none, s) := feed_discard hseek (hfree b List.mem_cons_self)
    have hlater := ih fun c hc => hfree c (List.mem_cons_of_mem b hc)
    rw [feedAll, hnow, hlater]
    rfl

/-! ### The account of every byte -/

theorem discardedBytes_cons (b : Byte) (rest : List Byte) (s : State) :
    discardedBytes (b :: rest) s = discardedBytes [b] s + discardedBytes rest (feed b s).2 := rfl

theorem abandonedBytes_cons (b : Byte) (rest : List Byte) (s : State) :
    abandonedBytes (b :: rest) s = abandonedBytes [b] s + abandonedBytes rest (feed b s).2 := rfl

/-- The account of one byte: it is discarded or joins those held, which are then abandoned, delivered
or still held. -/
theorem feed_account (b : Byte) (s : State) :
    s.writeIndex + 1 = discardedBytes [b] s + abandonedBytes [b] s + deliveredBytes (feed b s).1 +
      (feed b s).2.writeIndex := by
  simp only [discardedBytes, abandonedBytes, Nat.add_zero]
  rcases feed_cases b s with ⟨h0, hb, hf⟩ | ⟨h0, hb, hf⟩ | ⟨h0, -, hf⟩ | ⟨h2, -, -, hf⟩ |
      ⟨h0, -, -, -, -, hf⟩ | ⟨h0, -, -, -, hf⟩ <;> rw [hf]
  · simp [h0, hb, deliveredBytes]
  · simp [h0, hb, deliveredBytes]
  · simp [h0, deliveredBytes]
  · simp [h2, deliveredBytes]
  · simp [h0, deliveredBytes]
  · simp [h0, deliveredBytes]

/-- Settles O19: the sum of the accounts of the single bytes, and `length_of_mem_feedAll`. -/
theorem everyReceivedByteIsAccountedFor : Obligations.EveryReceivedByteIsAccountedFor := by
  intro s bytes
  refine ⟨?_, fun legal inv _ => length_of_mem_feedAll bytes s legal inv⟩
  induction bytes generalizing s with
  | nil => simp [discardedBytes, abandonedBytes, feedAll]
  | cons b rest ih =>
    have hnow := feed_account b s
    have hlater := ih (feed b s).2
    rw [discardedBytes_cons, abandonedBytes_cons, feedAll, List.map_cons, List.sum_cons,
      List.length_cons]
    dsimp only
    omega

end Sys2Proof.Machine
end

section
/-! SUPPORT. Every reachable state has the invariant of the machine, so no reachable framer is full
(40_reassembler.md R132). -/

namespace Sys2Proof.Machine

/-- What every step keeps, every run keeps. -/
theorem runFor_keeps {P : State → Prop} (hstep : ∀ s t, P s → step s = .next t → P t) (k : Nat) :
    ∀ {s t : State}, P s → runFor k s = .next t → P t := by
  induction k with
  | zero =>
    intro s t hs h
    obtain rfl : s = t := Host.Outcome.next.inj h
    exact hs
  | succ k ih =>
    intro s t hs h
    cases hu : step s with
    | next u =>
      rw [runFor_succ_next hu] at h
      exact ih (hstep s u hs hu) h
    | fault r => simp [runFor, hu] at h
    | refused r => simp [runFor, hu] at h

/-- Every reachable state has the invariant of the machine. -/
theorem Reachable.engineInv {t : State} (h : Reachable t) : EngineInv t := by
  obtain ⟨s, k, hstart, hrun⟩ := h
  obtain ⟨atStart, -⟩ := startStatesHaveTheInvariant
  exact runFor_keeps everyStepKeepsTheInvariant k (atStart s hstart) hrun

/-- FEED answers Overflow only with the receive buffer full (R122). -/
theorem full_of_feed_overflow {b : Byte} {s : State} (h : (feed b s).1 = .overflow) :
    s.cfg.rxCapacity ≤ s.writeIndex := by
  rcases feed_cases b s with ⟨-, -, hf⟩ | ⟨-, -, hf⟩ | ⟨-, hfull, -⟩ | ⟨-, -, -, hf⟩ |
      ⟨-, -, -, -, -, hf⟩ | ⟨-, -, -, -, hf⟩
  case inr.inr.inl => exact hfull
  all_goals rw [hf] at h; cases h

/-- Settles O16: R25, part of the invariant of every reachable state, keeps `writeIndex` below the
capacity. -/
theorem overflowIsUnreachable : Obligations.OverflowIsUnreachable := by
  intro t reachable
  have hroom := reachable.engineInv.reassembly.below
  exact ⟨hroom, fun _ hfull => absurd (full_of_feed_overflow hfull) (Nat.not_le.mpr hroom)⟩

end Sys2Proof.Machine
end

section
/-! SUPPORT. VALIDATE on any byte sequence (41_validator.md R156): what each check answers, and what is
left of the checks behind the framer (R159). -/

namespace Sys2Proof

/-- What check (a) asks of a byte sequence (R152). -/
def Structured (cfg : Config) (raw : List Byte) : Prop :=
  5 ≤ raw.length ∧ raw.head? = some cfg.header ∧ raw.getLast? = some cfg.footer

/-- A byte sequence that fails check (a) is Malformed (R152). -/
theorem validate_unstructured {cfg : Config} (hover : cfg.overhead = 5) {raw : List Byte}
    (h : ¬Structured cfg raw) : validate cfg raw = .error .malformed := by
  match raw with
  | [] | [_] | [_, _] => rfl
  | first :: code :: declared :: rest =>
    rw [validate, hover]
    refine if_pos (by_contra fun hpass => h ?_)
    simp only [not_or, not_lt, ne_eq, not_not] at hpass
    obtain ⟨hlen, hfirst, hlast⟩ := hpass
    exact ⟨hlen, congrArg some hfirst, hlast⟩

/-- A structured sequence has a command byte and a length byte, and VALIDATE makes the other two checks
on it, (b) before (c) (R153, R154). -/
theorem validate_structured {cfg : Config} (hover : cfg.overhead = 5) {raw : List Byte}
    (h : Structured cfg raw) : ∃ c n : Byte, raw[1]? = some c ∧ raw[2]? = some n ∧
      validate cfg raw =
        if n.toNat ≠ raw.length - 5 then .error (.lengthMismatch c)
        else if raw[3 + n.toNat]? ≠ some (sum8 ((raw.drop 3).take n.toNat)) then
          .error (.checksumFailed c)
        else .ok (c, (raw.drop 3).take n.toNat) := by
  match raw, h with
  | [], ⟨hlen, _⟩ | [_], ⟨hlen, _⟩ | [_, _], ⟨hlen, _⟩ => simp at hlen
  | first :: c :: n :: rest, ⟨hlen, hhead, hlast⟩ =>
    have hfirst : first = cfg.header := Option.some.inj hhead
    have hpass : ¬((first :: c :: n :: rest).length < 5 ∨ first ≠ cfg.header ∨
        (first :: c :: n :: rest).getLast? ≠ some cfg.footer) := by
      simp only [not_or, not_lt, ne_eq, not_not]
      exact ⟨hlen, hfirst, hlast⟩
    refine ⟨c, n, rfl, rfl, ?_⟩
    rw [validate, hover, if_neg hpass, Nat.add_comm 3]
    rfl

/-- Settles O8: the branches of `validate_structured`, behind check (a). -/
theorem validateMakesThreeChecksInOrder : Obligations.ValidateMakesThreeChecksInOrder := by
  intro cfg raw legal
  refine ⟨validate_unstructured legal.overhead, fun hs => ?_⟩
  obtain ⟨c, n, hc, hn, hv⟩ := validate_structured legal.overhead hs
  rw [hv]
  refine ⟨c, n, hc, hn, fun hlen => if_pos hlen, fun hlen => ?_⟩
  rw [if_neg (not_not.mpr hlen)]
  exact ⟨fun hsum => if_pos hsum, fun hsum => if_neg (not_not.mpr hsum)⟩

end Sys2Proof

namespace Sys2Proof.Machine

/-- Settles O15: a completed frame has the header and the declared length (O14), so of VALIDATE's checks
(O8) only the footer's and the checksum's are left. -/
theorem lengthMismatchNeverBehindTheFramer : Obligations.LengthMismatchNeverBehindTheFramer := by
  intro s b raw legal inv h
  obtain ⟨hhead, hlow, -, n, hn, hlen⟩ :=
    completedFramesHaveTheDeclaredShape s b raw legal inv h
  obtain ⟨hmalformed, hchecks⟩ := validateMakesThreeChecksInOrder s.cfg raw legal
  by_cases hfooter : raw.getLast? = some s.cfg.footer
  · obtain ⟨c, m, -, hm, -, hchecksum⟩ :=
      hchecks ⟨hlow, by rwa [List.head?_eq_getElem?], hfooter⟩
    obtain rfl : n = m := Option.some.inj (hn.symm.trans hm)
    obtain ⟨hbad, hgood⟩ := hchecksum (by omega)
    by_cases hsum : raw[3 + n.toNat]? = some (sum8 ((raw.drop 3).take n.toNat))
    · simp [hgood hsum, hfooter]
    · simp [hbad hsum, hfooter]
  · simp [hmalformed fun ⟨_, _, hlast⟩ => hfooter hlast, hfooter]

end Sys2Proof.Machine
end

section
/-! SUPPORT. VALIDATE undoes ENCODE through the framer (41_validator.md R161): FEED on each byte of a
deliverable frame, by the simulation of its reception. -/

namespace Sys2Proof.Machine

variable {s : State} {raw : List Byte}

/-- The rest of a frame in flight, fed to the framer: nothing is answered before the last byte, which
completes the frame. -/
theorem feedAll_inFlight (h : Deliverable s.cfg raw) (coming : List Byte) (last : Byte) :
    ∀ (todo got : List Byte), raw = got ++ (todo ++ [last]) → got ≠ [] →
      feedAll (todo ++ [last]) (inFlight s raw got coming) =
        (List.replicate todo.length .none ++ [.complete raw], delivered s raw coming) := by
  intro todo
  induction todo with
  | nil =>
    intro got hraw hgot
    have hnow : feed last (inFlight s raw got coming) = (.complete raw, delivered s raw coming) := by
      rw [feed_inFlight h hraw hgot, ← show raw = got ++ [last] from hraw,
        complete?_inFlight_all h.three_le]
    rw [List.nil_append, feedAll, hnow]
    rfl
  | cons b todo ih =>
    intro got hraw hgot
    have hraw' : raw = (got ++ [b]) ++ (todo ++ [last]) := by rw [hraw, List.append_assoc]; rfl
    have hnow : feed b (inFlight s raw got coming) = (.none, inFlight s raw (got ++ [b]) coming) := by
      rw [feed_inFlight h hraw hgot, complete?_inFlight hraw' (by simp)]
    rw [List.cons_append, feedAll, hnow, ih _ hraw' (by simp)]
    rfl

/-- A deliverable frame fed to a Seeking framer is answered with its completion, at its last byte, and
with nothing before (R121 to R126). -/
theorem feedAll_deliverable (h : Deliverable s.cfg raw) (hseek : s.seeking) :
    feedAll raw s =
      (List.replicate (raw.length - 1) .none ++ [.complete raw], delivered s raw s.rxStream) := by
  have hsize := h.three_le
  match raw, h.header with
  | first :: tail, hfirst =>
    obtain rfl : first = s.cfg.header := Option.some.inj hfirst
    obtain rfl | ⟨todo, last, rfl⟩ := List.eq_nil_or_concat' tail
    · simp at hsize
    have hnow : feed s.cfg.header s = (.none,
        inFlight s (s.cfg.header :: (todo ++ [last])) [s.cfg.header] s.rxStream) :=
      feed_start hseek rfl
    rw [feedAll, hnow, feedAll_inFlight h s.rxStream last todo [s.cfg.header] rfl (by simp)]
    simp [List.replicate_succ]

/-- Settles O4: `validate_frame`, and for the framer `feedAll_deliverable`. -/
theorem validateReadsBackEveryFrame : Obligations.ValidateReadsBackEveryFrame := by
  intro cfg c p legal
  refine ⟨validate_frame legal.overhead c, ?_⟩
  rintro hfits s rfl hseek
  refine ⟨?_, validate_frame legal.overhead c (legal.fitsRx_byte hfits)⟩
  rw [feedAll_deliverable (deliverable_frame legal c hfits) hseek, length_frame]
  rfl

end Sys2Proof.Machine
end

section
/-! SUPPORT. The dispatcher (42_dispatcher.md): which frames reach a handler (R171), what a code without a
handler selects (R174), and the assigned codes and handler ports in bits (R180). -/

namespace Sys2Proof.Machine

/-! ### Rejected frames (R171) -/

section Rejected

variable {s : State} {raw : List Byte} {e : FrameError}

/-- The decoder rejects what VALIDATE rejects, for the same reason. -/
theorem decode_rejected {cfg : Config} (h : validate cfg raw = .error e) :
    decode cfg raw = .error e := by
  simp only [decode, h]

/-- What is executed for a rejected frame is an error form, if anything (R170). -/
theorem isRequest_of_rejected {cfg : Config} {i : Instr} (h : validate cfg raw = .error e)
    (hi : instrOfFrame cfg raw = some i) : i.isRequest = false := by
  rw [instrOfFrame, decode_rejected h] at hi
  cases e with
  | malformed => cases hi
  | lengthMismatch c | checksumFailed c => cases hi; rfl

/-- A rejected frame raises its event, and the two errors that have a response send it. -/
theorem runFrame_rejected (legal : s.cfg.Legal) (h : validate s.cfg raw = .error e) :
    ∃ d, runFrame raw s = .next (s.emit d) ∨ ∃ f, runFrame raw s = .next ((s.emit d).txSend f) := by
  have hd := decode_rejected h
  cases e with
  | malformed => exact ⟨_, .inl (runFrame_malformed hd)⟩
  | lengthMismatch c =>
    exact ⟨_, .inr ⟨_, (runFrame_lengthMismatch hd).trans
      (reply_short (s := s.emit (.lengthMismatch c)) legal)⟩⟩
  | checksumFailed c =>
    exact ⟨_, .inr ⟨_, (runFrame_checksumFailed hd).trans
      (reply_short (s := s.emit (.checksumFailed c)) legal)⟩⟩

end Rejected

/-- Settles O22: neither an event nor a frame sent touches the dispatcher's state or calls a
collaborator. -/
theorem rejectedFramesNeverReachDispatch : Obligations.RejectedFramesNeverReachDispatch := by
  intro s raw e legal h
  refine ⟨fun i => isRequest_of_rejected h, ?_⟩
  obtain ⟨d, hrun | ⟨f, hrun⟩⟩ := runFrame_rejected legal h
  · exact ⟨_, hrun, ⟨rfl, rfl, rfl, rfl⟩, rfl⟩
  · exact ⟨_, hrun, ⟨rfl, rfl, rfl, rfl⟩, rfl⟩

/-! ### Codes without a handler (R174) -/

/-- A code without a handler selects PARAM_A or PARAM_B if it is theirs, else UNKNOWN (R174). -/
theorem instrOf_unhandled {cfg : Config} {c : Byte} (p : List Byte) (h : Unhandled cfg c) :
    (c = cfg.cmdParamA ∧ instrOf cfg c p = .paramA p) ∨
    (c = cfg.cmdParamB ∧ instrOf cfg c p = .paramB p) ∨ instrOf cfg c p = .unknown c p := by
  simp only [Unhandled, Config.handledCodes, List.mem_cons, List.not_mem_nil, or_false, not_or] at h
  by_cases hA : c = cfg.cmdParamA
  · exact .inl ⟨hA, by simp [instrOf, h, ← hA]⟩
  by_cases hB : c = cfg.cmdParamB
  · exact .inr (.inl ⟨hB, by simp [instrOf, h, hA, ← hB]⟩)
  · exact .inr (.inr (by simp [instrOf, h, hA, hB]))

/-- Settles O35: each of the three instructions is the condition UnknownCommand, which has no response;
`instrOf_unhandled` says that there is no other instruction. -/
theorem unhandledCommandsOnlyRaiseAnEvent : Obligations.UnhandledCommandsOnlyRaiseAnEvent := by
  intro s payload c
  have hevent (c : Byte) : takeCondition (.unknownCommand c) s =
      .next { s with events := s.events ++ [.unknownCommand c] } := takeCondition_silent rfl
  refine ⟨rfl, rfl, hevent _, hevent _, hevent c, fun h => ?_⟩
  rcases instrOf_unhandled payload h with ⟨rfl, hi⟩ | ⟨rfl, hi⟩ | hi <;> rw [hi] <;> exact hevent _

/-! ### The handler ports (R43, R180) -/

/-- The port of a code is its place among the handled codes. -/
theorem getElem?_of_handlerPort {cfg : Config} {c : Byte} {k : Fin 6}
    (h : handlerPort cfg c = some k) : cfg.handledCodes[k.val]? = some c := by
  unfold handlerPort at h
  repeat' split at h
  all_goals cases h
  all_goals subst c; rfl

/-- A code without a port has no handler. -/
theorem unhandled_of_handlerPort {cfg : Config} {c : Byte} (h : handlerPort cfg c = none) :
    Unhandled cfg c := by
  unfold handlerPort at h
  repeat' split at h
  all_goals simp_all [Unhandled, Config.handledCodes]

/-- Where no two commands share a code, the place among the handled codes says the port. -/
theorem handlerPort_eq_some_iff {cfg : Config} (hcodes : cfg.commandCodes.Nodup) (c : Byte)
    (k : Fin 6) : handlerPort cfg c = some k ↔ cfg.handledCodes[k.val]? = some c := by
  refine ⟨getElem?_of_handlerPort, fun hk => ?_⟩
  cases hport : handlerPort cfg c with
  | none => exact absurd (List.mem_of_getElem? hk) (unhandled_of_handlerPort hport)
  | some j =>
    have hj := getElem?_of_handlerPort hport
    have hnodup : cfg.handledCodes.Nodup := (List.nodup_append.mp hcodes).1
    have hval : j.val = k.val := (List.getElem?_inj j.isLt hnodup).mp (hj.trans hk.symm)
    rw [Fin.ext hval]

/-- The `k`-th assigned code of the default configuration. -/
def assignedCode (k : Fin 8) : Byte := BitVec.ofNat 8 (0x10 + k.val)

theorem commandCodes_standard : Config.standard.commandCodes = List.ofFn assignedCode := rfl

theorem getElem?_commandCodes_standard (c : Byte) (k : Fin 8) :
    Config.standard.commandCodes[k.val]? = some c ↔ c = assignedCode k := by
  rw [commandCodes_standard, List.getElem?_ofFn, dif_pos k.isLt, Option.some_inj, eq_comm]

/-- An assigned code in bits: `0b00010` above its number (R180). -/
theorem bits_iff_assignedCode (c : Byte) (k : Fin 8) :
    c.extractLsb' 3 5 = 0b00010#5 ∧ (c.extractLsb' 0 3).toNat = k.val ↔ c = assignedCode k := by
  simp only [assignedCode, ← BitVec.toNat_inj, BitVec.extractLsb'_toNat, BitVec.toNat_ofNat,
    Nat.shiftRight_eq_div_pow]
  omega

/-- The high bits alone say that a code is assigned, since three bits number eight codes. -/
theorem mem_commandCodes_standard (c : Byte) :
    c ∈ Config.standard.commandCodes ↔ c.extractLsb' 3 5 = 0b00010#5 := by
  rw [commandCodes_standard, List.mem_ofFn]
  refine ⟨fun ⟨k, hk⟩ => ((bits_iff_assignedCode c k).mpr hk.symm).1, fun hbits => ?_⟩
  exact ⟨⟨_, (c.extractLsb' 0 3).isLt⟩, ((bits_iff_assignedCode c _).mp ⟨hbits, rfl⟩).symm⟩

/-- Settles O56: both numberings are places in the list of assigned codes, of which the handled codes are
the first six. -/
theorem handlerPortIsTheLowThreeBits : Obligations.HandlerPortIsTheLowThreeBits := by
  intro c
  have hplace (k : Fin 8) := (getElem?_commandCodes_standard c k).trans
    (bits_iff_assignedCode c k).symm
  refine ⟨mem_commandCodes_standard c, hplace, fun k => ?_⟩
  have hprefix : Config.standard.commandCodes[k.val]? = Config.standard.handledCodes[k.val]? :=
    List.getElem?_append_left k.isLt
  rw [handlerPort_eq_some_iff standard_legal.commandCodes, ← hprefix]
  exact hplace (k.castLE (by decide))

end Sys2Proof.Machine
end

section
/-! SUPPORT. The commands (43_commands.md R190 to R213): the credential flow, the status query, and a
transfer from its start to its end. -/

namespace Sys2Proof.Machine

/-! ### What every command leaves alone (R190) -/

/-- Settles O38: the effect of an instruction touches none of the seven, and sending a frame only the
transmit buffer and the transmitted frames. -/
theorem instructionsLeaveTheFramerAlone : Obligations.InstructionsLeaveTheFramerAlone := by
  intro i s t h
  obtain ⟨u, hu, rfl | ⟨p, -, -, rfl⟩⟩ := exec_next h
  · exact ⟨hu.cfg, hu.rxBuf, hu.writeIndex, hu.expectedLength, hu.rxStream, hu.bulkStream,
      hu.schedule⟩
  · exact ⟨hu.cfg, hu.rxBuf, hu.writeIndex, hu.expectedLength, hu.rxStream, hu.bulkStream,
      hu.schedule⟩

/-! ### The credential flow (R192 to R198) -/

/-- A frame with no payload has length and checksum 0 (R105). -/
theorem frame_nil (cfg : Config) (c : Byte) :
    frame cfg c [] = [cfg.header, c, 0x00, 0x00, cfg.footer] := rfl

/-- Settles O25: the handler sets `pendingName`, then a one-byte reply. -/
theorem netConnectStoresTheName : Obligations.NetConnectStoresTheName := fun s name legal =>
  ⟨rfl, reply_short (s := { s with pendingName := name }) legal⟩

/-- Settles O26: the handler records the call, then a one-byte reply. -/
theorem netPasswordStartsAJoin : Obligations.NetPasswordStartsAJoin := fun s password legal =>
  ⟨rfl, reply_short (s := s.record (.initiateJoin s.pendingName password)) legal⟩

/-- Settles O27: the handler draws the answer, which is the one byte of the reply. -/
theorem netConfirmPassesTheStatusThrough : Obligations.NetConfirmPassesTheStatusThrough :=
  fun s _ legal => ⟨frame_nil _ _, reply_short (s := (queryJoinStatus s).2) legal⟩

/-! ### The status query with no prior transfer (R200) -/

theorem sum8_replicate_zero (n : Nat) : sum8 (List.replicate n 0x00#8) = 0x00#8 := by
  simp [sum8]

/-- With both counts 0 and both names empty, the record is 48 zeros. -/
theorem statusRecord_zero {cfg : Config} (legal : cfg.Legal) :
    statusRecord 0 0 (emptyName cfg) (emptyName cfg) = List.replicate 48 0x00#8 := by
  rw [emptyName, legal.nameFieldLen]
  rfl

/-- Settles O30: neither category is counted, and what STATUS_LEN keeps of a record of zeros is zeros,
with checksum 0. -/
theorem fileStatusWithNoTransferIsZeros : Obligations.FileStatusWithNoTransferIsZeros := by
  intro s ignored legal hbody hborder
  have hcountBody : total .body s = (0, s) := (countIsZeroOrTheAnswer s .body).1 hbody
  have hcountBorder : total .border s = (0, s) := (countIsZeroOrTheAnswer s .border).1 hborder
  have hrecord : (statusRecord 0 0 s.lastNameBody s.lastNameBorder).take s.cfg.statusLen =
      List.replicate s.cfg.statusLen 0x00#8 := by
    have hle : s.cfg.statusLen ≤ 48 := by
      have hlen := legal.statusLen
      omega
    rw [hbody, hborder, statusRecord_zero legal, List.take_replicate, Nat.min_eq_left hle]
  have hfits : s.cfg.fitsTx (List.replicate s.cfg.statusLen 0x00#8).length := by
    rw [List.length_replicate, Config.fitsTx, legal.overhead]
    exact legal.txLower
  calc exec (.fileStatus ignored) s
    _ = reply s.cfg.cmdFileStatus (List.replicate s.cfg.statusLen 0x00#8) s := by
      simp only [exec, execFileStatus, hcountBody, hcountBorder, hrecord]
    _ = .next (s.txSend (frame s.cfg s.cfg.cmdFileStatus
          (List.replicate s.cfg.statusLen 0x00#8))) := reply_of_fits hfits
    _ = _ := by simp [frame, sum8_replicate_zero]

/-! ### The operands of XFER_START (R191, R209) -/

/-- Settles O53: two distinct bytes name a category each, and no other byte does. -/
theorem categoryByteSelectsTheCategory : Obligations.CategoryByteSelectsTheCategory := by
  intro cfg x legal
  refine ⟨if_pos rfl, ?_, fun hbody hborder => ?_⟩
  · rw [catOf, if_neg legal.categories.symm, if_pos rfl]
  · rw [catOf, if_neg hbody, if_neg hborder]

theorem startOperands_cons (cfg : Config) (x : Byte) (name : List Byte) :
    startOperands cfg (x :: name) = (catOf cfg x).map (·, name) := by
  cases h : catOf cfg x <;> simp [startOperands, h]

theorem exec_xferStart_defined {payload name : List Byte} {k : Category} {s : State}
    (h : startOperands s.cfg payload = some (k, name)) :
    exec (.xferStart payload) s = startTransfer k name s := by
  simp only [exec, execXferStart, h]

theorem exec_xferStart_undefined {payload : List Byte} {s : State}
    (h : startOperands s.cfg payload = none) :
    exec (.xferStart payload) s = startUndefined s := by
  simp only [exec, execXferStart, h]

/-- Settles O33: such a payload has no operands, and the policy is all that is left to ask. -/
theorem xferStartUndefinedPayloadFollowsThePolicy :
    Obligations.XferStartUndefinedPayloadFollowsThePolicy := by
  intro s payload hpayload
  have hnone : startOperands s.cfg payload = none := by
    rcases hpayload with rfl | ⟨x, name, rfl, hcat⟩
    · rfl
    · rw [startOperands_cons, hcat]
      rfl
  rw [exec_xferStart_undefined hnone, startUndefined]
  refine ⟨fun hpolicy => ?_, fun hpolicy => ?_⟩ <;> rw [hpolicy]
  exact takeCondition_silent rfl

/-! ### The two ends of an open (R204 to R208) -/

/-- The state after the open of a new transfer: a session already active is closed before the call
(R205, R207). -/
def afterOpen (name : List Byte) (answer : Option Handle) (s : State) : State :=
  { s with
    openAnswers := s.openAnswers.tail, draws := s.draws + 1
    calls := s.calls ++ closeCalls s ++ [.openWritable name answer]
    session := none }

/-- Closing the session draws no answer, so the open gets the one that was next before it. -/
theorem openWritable_closeSession (name : List Byte) (s : State) :
    openWritable name (closeSession s) = (s.nextOpen, afterOpen name s.nextOpen s) := by
  rw [closeSession_eq]
  rfl

/-- XFER_START with operands goes on from `afterOpen`, by the answer of the open (R204 to R208). -/
theorem exec_xferStart_eq {s : State} {x : Byte} {k : Category} (name : List Byte)
    (hcat : catOf s.cfg x = some k) :
    exec (.xferStart (x :: name)) s = s.nextOpen.elim
      (startFailed k name (afterOpen name none s))
      (fun handle => startOpened k name handle (afterOpen name (some handle) s)) := by
  have hoperands : startOperands s.cfg (x :: name) = some (k, name) := by
    rw [startOperands_cons, hcat]
    rfl
  rw [exec_xferStart_defined hoperands, startTransfer, openWritable_closeSession]
  cases s.nextOpen <;> rfl

/-- Recording a last-known name writes the field of its category and no other (R206). -/
theorem setLastName_eq (k : Category) (field : List Byte) (s : State) :
    s.setLastName k field = { s with
      lastNameBody := if k = .body then field else s.lastNameBody
      lastNameBorder := if k = .border then field else s.lastNameBorder } := by
  cases k <;> rfl

/-- Settles O31: after the open the session and the last-known name are set, then a one-byte reply. -/
theorem xferStartOpensATransfer : Obligations.XferStartOpensATransfer := by
  intro s x name k h legal hcat hopen
  rw [exec_xferStart_eq name hcat, hopen, Option.elim_some, startOpened, setLastName_eq]
  exact reply_short legal

/-- Settles O32: after the open only the name may be set, where the parameter says so, and the condition
StorageOpenFailure has no response. -/
theorem xferStartFailedOpenIsSilent : Obligations.XferStartFailedOpenIsSilent := by
  refine ⟨rfl, fun s x name k hcat hopen => ?_⟩
  rw [exec_xferStart_eq name hcat, hopen, Option.elim_none, startFailed, takeCondition_silent rfl,
    raise_storageOpenFailure, setLastName_eq]
  by_cases hparam : s.cfg.updateNameOnOpenFailure <;> simp [hparam, State.emit, afterOpen]

/-- Settles O34: the handler closes the session if there is one, then a one-byte reply. -/
theorem xferEndClosesTheSession : Obligations.XferEndClosesTheSession := by
  intro s ignored legal
  refine ⟨frame_nil _ _, ?_⟩
  rw [exec, execXferEnd, finalize_eq]
  exact reply_short legal

end Sys2Proof.Machine
end

section
/-! SUPPORT. The encoder (44_encoder.md): the layout of the frame it builds (R230, R231), and that no reply
of a step is over its bound (R233). -/

namespace Sys2Proof

/-- Behind the header, the command byte and the length byte a frame holds its payload, then the checksum
and the footer (R230). -/
theorem drop_three_frame (cfg : Config) (c : Byte) (p : List Byte) :
    (frame cfg c p).drop 3 = p ++ [sum8 p, cfg.footer] := rfl

/-- A byte of the trailer, by its place behind the payload. -/
theorem getElem?_frame_trailer (cfg : Config) (c : Byte) (p : List Byte) (k : Nat) :
    (frame cfg c p)[3 + (p.length + k)]? = [sum8 p, cfg.footer][k]? := by
  rw [← List.getElem?_drop, drop_three_frame, List.getElem?_append_right (Nat.le_add_right _ _),
    Nat.add_sub_cancel_left]

/-- Settles O5: the transmit bound keeps the payload length within a byte, so the length byte does not
wrap. -/
theorem encodedFrameLayout : Obligations.EncodedFrameLayout := by
  intro cfg c p legal hfits
  have hlength := toNat_length_byte p (legal.fitsTx_byte hfits)
  refine ⟨rfl, rfl, ⟨_, rfl, hlength⟩, ?_, getElem?_frame_trailer cfg c p 0, ?_, length_frame cfg c p⟩
  · rw [drop_three_frame, List.take_left]
  · rw [show 4 + p.length = 3 + (p.length + 1) by omega]
    exact getElem?_frame_trailer cfg c p 1

end Sys2Proof

namespace Sys2Proof.Machine

/-- The reply of a well-formed instruction fits the transmit buffer (R233). -/
theorem EngineInv.fitsTx_reply {i : Instr} {s : State} {p : List Byte} (inv : EngineInv s)
    (wf : i.wellFormed s.cfg = true) (h : IsSentForm i s p) : s.cfg.fitsTx p.length := by
  obtain ⟨g, hg, hwf, rfl, -⟩ := inv.reply_wellFormed wf h
  exact fitsTx_sentForm inv.legal hg hwf

/-- Whatever the policy of R209, a well-formed instruction answers a next state, or it is an XFER_START
with an undefined payload that the policy refuses. -/
theorem EngineInv.exec_next_or_refused {i : Instr} {s : State} (inv : EngineInv s)
    (wf : i.wellFormed s.cfg = true) :
    (∃ t, Machine.exec i s = .next t) ∨
    (s.cfg.startBadPayload = .refuse ∧ (∃ p, i = .xferStart p ∧ startOperands s.cfg p = none) ∧
      Machine.exec i s = .refused .startPayloadUndefined) := by
  rcases exec_shape i s with ⟨p, u, hreply, eff, hsent⟩ | ⟨u, hnext, -⟩ | ⟨hrefused, hpolicy, hstart⟩
  · have hfits : u.cfg.fitsTx p.length := by
      rw [eff.cfg]
      exact inv.fitsTx_reply wf hsent
    exact .inl ⟨_, hreply.trans (reply_of_fits hfits)⟩
  · exact .inl ⟨u, hnext⟩
  · exact .inr ⟨hpolicy, hstart, hrefused⟩

/-- Settles O44, one kind of step after the other: only an ENGINE_STEP that executes `nextInstr` can do
anything but answer, and `EngineInv.exec_next_or_refused` says what in the state it runs in. -/
theorem everyStepCompletes : Obligations.EveryStepCompletes := by
  intro s inv
  rcases step_cases s with ⟨-, -, hwait⟩ | ⟨b, rest, ht, hr, -⟩ | ⟨n, -, hbulk⟩
  · exact .inl ⟨_, hwait⟩
  · rcases step_command ht hr with hfeed | hdrop | ⟨i, hi, hexec⟩
    · exact .inl ⟨_, hfeed⟩
    · exact .inl ⟨_, hdrop⟩
    · have wf : i.wellFormed (byteFed s b rest).cfg = true := by
        rw [byteFed_cfg]
        exact wellFormed_nextInstr inv.legal hi
      have outcome := (inv.byteFed b rest).exec_next_or_refused wf
      rw [byteFed_cfg, ← hexec] at outcome
      exact outcome.imp_right fun ⟨hpolicy, ⟨p, hp, hnone⟩, hrefused⟩ =>
        ⟨hpolicy, ⟨p, hp ▸ hi, hnone⟩, hrefused⟩
  · exact .inl ⟨_, hbulk⟩

end Sys2Proof.Machine
end

section
/-! SUPPORT. The bulk channel (45_bulk_channel.md): a WRITECHUNK turn (R251) and FINALIZE (R252). -/

namespace Sys2Proof.Machine

theorem step_bulk {s : State} {n : Nat} (h : nextTurn s = .bulk n) :
    step s = .next (writeChunk n (turnTaken s)) := by
  rw [step, takeTurn, h, serve]

/-- Settles O40: the step of a bulk turn is its WRITECHUNK, and `writeChunk_cases` says by the chunk and
the session what that does. -/
theorem writeChunkGoesToTheOpenHandle : Obligations.WriteChunkGoesToTheOpenHandle := by
  constructor
  · intro s n hturn
    rw [step_bulk hturn]
    rcases writeChunk_cases n (turnTaken s) with
      ⟨hempty, hw⟩ | ⟨hne, hnone, hw⟩ | ⟨opened, hne, hsome, hw⟩ <;> rw [hw]
    · exact ⟨fun _ => rfl, fun hne => absurd hempty hne, fun _ hne => absurd hempty hne⟩
    · exact ⟨fun hempty => absurd hempty hne, fun _ _ => rfl,
        fun _ _ hsome => absurd (hsome.symm.trans hnone) (Option.some_ne_none _)⟩
    · refine ⟨fun hempty => absurd hempty hne,
        fun _ hnone => absurd (hsome.symm.trans hnone) (Option.some_ne_none _),
        fun active _ hactive => ?_⟩
      obtain rfl : opened = active := Option.some.inj (hsome.symm.trans hactive)
      rfl
  · intro s hport hrx
    rcases nextTurn_port hport with ⟨hne, -⟩ | ⟨-, hturn⟩
    · exact absurd hrx hne
    · exact hturn

/-- FINALIZE calls nobody where there is no session to end. -/
theorem finalize_of_no_session {s : State} (h : s.session = none) : finalize s = s := by
  rw [finalize, closeSession, h]

/-- Settles O41: FINALIZE leaves no session, so a second one has none to end; the response of XFER_END is
that of `xferEndClosesTheSession`. -/
theorem finalizeClosesTheSession : Obligations.FinalizeClosesTheSession := by
  intro s
  refine ⟨finalize_eq s, finalize_of_no_session (closeSession_session s), fun legal ignored => ?_⟩
  rw [finalize_eq]
  exact (xferEndClosesTheSession s ignored legal).2

end Sys2Proof.Machine
end

section
/-! SUPPORT. The exceptions (60_exceptions.md): what a failed check of VALIDATE brings about (R265 to
R267), how many events a step raises (R271), and an idle engine (R288). -/

namespace Sys2Proof

/-- The command byte an error of VALIDATE keeps, none for a malformed frame (R152). -/
def FrameError.code? : FrameError → Option Byte
  | .malformed => none
  | .lengthMismatch code | .checksumFailed code => some code

/-- The command byte an error keeps is the one received, whatever byte it is (R153, R154). -/
theorem getElem?_one_of_rejected {cfg : Config} {raw : List Byte} {e : FrameError} {c : Byte}
    (hover : cfg.overhead = 5) (h : validate cfg raw = .error e) (hcode : e.code? = some c) :
    raw[1]? = some c := by
  by_cases hs : Structured cfg raw
  · obtain ⟨received, n, hreceived, -, hv⟩ := validate_structured hover hs
    rw [hv] at h
    split_ifs at h <;> cases h <;> exact hreceived.trans hcode
  · rw [validate_unstructured hover hs] at h
    cases h
    cases hcode

end Sys2Proof

namespace Sys2Proof.Machine

/-! ### The failed checks (R265 to R267) -/

/-- Settles O23: a malformed frame is dropped with its event; the two other errors execute their error
form, which `shortSentFormsAreSent` says what it does. -/
theorem failedChecksAreAnswered : Obligations.FailedChecksAreAnswered := by
  intro s raw c legal
  obtain ⟨-, hlen, hcksum, -⟩ := shortSentFormsAreSent s c 0x00 legal
  refine ⟨fun h => runFrame_malformed (decode_rejected h), fun h => ⟨?_, ?_⟩, fun h => ⟨?_, ?_⟩⟩
  · exact getElem?_one_of_rejected legal.overhead h rfl
  · exact (runFrame_lengthMismatch (decode_rejected h)).trans hlen
  · exact getElem?_one_of_rejected legal.overhead h rfl
  · exact (runFrame_checksumFailed (decode_rejected h)).trans hcksum

/-! ### The events of a step (R262, R271) -/

/-- From the one state to the other at most one event has been raised. -/
def AtMostOneEvent (s t : State) : Prop := t.events = s.events ∨ ∃ e, t.events = s.events ++ [e]

theorem exec_atMostOneEvent {i : Instr} {s t : State} (h : exec i s = .next t) :
    AtMostOneEvent s t := by
  obtain ⟨u, eff, rfl | ⟨p, -, -, rfl⟩⟩ := exec_next h
  · exact eff.events
  · exact eff.events

theorem runFrame_atMostOneEvent {raw : List Byte} {s t : State} (h : runFrame raw s = .next t) :
    AtMostOneEvent s t := by
  rcases runFrame_cases raw s with ⟨i, -, hrun⟩ | ⟨-, hrun⟩ <;> rw [hrun] at h
  · exact exec_atMostOneEvent h
  · cases h
    exact .inr ⟨.malformed, rfl⟩

/-- A FEED raises the event of its answer's name, if it has one (R262). -/
theorem feed_atMostOneEvent (b : Byte) (s : State) : AtMostOneEvent s (feed b s).2 := by
  have hevents : (feed b s).2.events = s.events ++ feedDiagnostics (feed b s).1 :=
    congrArg State.events (feed_eq_with b s)
  unfold AtMostOneEvent
  rw [hevents]
  cases (feed b s).1 with
  | none | complete raw => exact .inl (List.append_nil _)
  | overflow | lengthTooLarge => exact .inr ⟨_, rfl⟩

/-- The FEED that completes a frame raises no event, so that of the frame's execution is the only
one. -/
theorem engineStep_atMostOneEvent {b : Byte} {s t : State} (h : engineStep b s = .next t) :
    AtMostOneEvent s t := by
  rcases engineStep_cases b s with ⟨raw, -, hrun⟩ | ⟨-, hfeed⟩
  · rw [hrun] at h
    exact runFrame_atMostOneEvent (s := (s.append b).resetReassembly) h
  · rw [hfeed] at h
    cases h
    exact feed_atMostOneEvent b s

/-- Settles O48: `step_cfg_schedule` for the configuration, and of the three kinds of step only an
ENGINE_STEP raises events. -/
theorem atMostOneEventAStep : Obligations.AtMostOneEventAStep := by
  intro s t h
  refine ⟨(step_cfg_schedule h).1, ?_⟩
  rcases step_cases s with ⟨-, -, hwait⟩ | ⟨b, rest, -, -, hengine⟩ | ⟨n, -, hbulk⟩
  · rw [hwait] at h
    cases h
    exact .inl rfl
  · rw [hengine] at h
    exact engineStep_atMostOneEvent (s := byteTaken s rest) h
  · rw [hbulk, writeChunk_eq] at h
    cases h
    exact .inl rfl

/-! ### The idle engine (R288) -/

/-- An empty chunk is nothing (R251). -/
theorem writeChunk_of_take_nil {n : Nat} {s : State} (h : s.bulkStream.take n = []) :
    writeChunk n s = s := by
  rcases writeChunk_cases n s with ⟨-, hw⟩ | ⟨hne, -⟩ | ⟨-, hne, -⟩
  · exact hw
  · exact absurd h hne
  · exact absurd h hne

/-- A step whose turn has no byte to take changes nothing but the schedule. -/
theorem step_idle {s : State} (hcommand : nextTurn s = .command → s.rxStream = [])
    (hbulk : ∀ n, nextTurn s = .bulk n → s.bulkStream.take n = []) :
    step s = .next (turnTaken s) := by
  rcases step_cases s with ⟨-, -, hwait⟩ | ⟨b, rest, ht, hr, -⟩ | ⟨n, ht, hchunk⟩
  · exact hwait
  · cases hr.symm.trans (hcommand ht)
  · rw [hchunk, writeChunk_of_take_nil (s := turnTaken s) (hbulk n ht)]

/-- At a bulk turn the transport offers no byte exactly where the chunk is empty (R42). -/
theorem bulkValid_eq_false_iff {n : Nat} {s : State} (ht : nextTurn s = .bulk n) :
    s.bulkValid = false ↔ s.bulkStream.take n = [] := by
  simp [State.bulkValid, ht, List.take_eq_nil_iff, or_iff_not_imp_left]

/-- Settles O24: in either reading a command turn finds no receive byte and a bulk turn an empty
chunk. -/
theorem idleEngineHoldsItsState : Obligations.IdleEngineHoldsItsState := by
  refine fun s => ⟨fun hrx hbulk => ?_, fun hrx hbulk => ?_⟩
  · exact step_idle (fun _ => hrx) fun n _ => by rw [hbulk, List.take_nil]
  · refine step_idle (fun ht => ?_) fun n ht => (bulkValid_eq_false_iff ht).mp hbulk
    by_contra hne
    rw [(rxValid_iff s).mpr ⟨ht, hne⟩] at hrx
    cases hrx

end Sys2Proof.Machine
end

section
/-! SUPPORT. Reset (70_reset_and_hazards.md R300), and the flush of a stale partial frame (R311): bytes
none of which is the header start no frame, so the one in flight grows to its end. -/

namespace Sys2Proof.Machine

/-! ### The reset values (R300) -/

/-- No handler is selected while no receive byte waits (R177). -/
theorem handlerSelect_of_rxStream_nil {s : State} (hrx : s.rxStream = []) :
    s.handlerSelect = 0 := by
  rcases handlerSelect_cases s with ⟨-, b, rest, -, -, -, -, hr, -⟩ | hzero
  · cases hr.symm.trans hrx
  · exact hzero

/-- Settles O54: every element as `State.initial` gives it, and the select by
`handlerSelect_of_rxStream_nil`. -/
theorem resetValues : Obligations.ResetValues :=
  ⟨rfl, rfl, rfl, rfl, rfl, rfl, rfl, rfl, rfl, handlerSelect_of_rxStream_nil rfl⟩

/-! ### The flush of a stale partial frame (R311) -/

/-- The reassembly invariant is kept along a sequence of bytes, under the configuration of its start. -/
theorem feedAll_reassemblyInv (bytes : List Byte) :
    ∀ {s : State}, ReassemblyInv s → s.cfg.Legal →
      ReassemblyInv (feedAll bytes s).2 ∧ (feedAll bytes s).2.cfg = s.cfg := by
  induction bytes with
  | nil => exact fun inv _ => ⟨inv, rfl⟩
  | cons b rest ih =>
    intro s inv legal
    have hcfg : (feed b s).2.cfg = s.cfg := (feed_framerEffect b s).cfg
    obtain ⟨hinv, hrest⟩ := ih (inv.feed legal) (hcfg.symm ▸ legal)
    exact ⟨hinv, hrest.trans hcfg⟩

/-- A byte that is not the header leaves the framer Seeking, or joins the frame already in flight. -/
theorem feed_headerFree {b : Byte} {s : State} (hb : b ≠ s.cfg.header) :
    (feed b s).2.seeking ∨ s.writeIndex ≠ 0 ∧ (feed b s).2.writeIndex = s.writeIndex + 1 := by
  rcases feed_cases b s with ⟨h0, -, hf⟩ | ⟨-, hstart, -⟩ | ⟨-, -, hf⟩ | ⟨-, -, -, hf⟩ |
      ⟨-, -, -, -, -, hf⟩ | ⟨h0, -, -, -, hf⟩
  · exact .inl (by rw [hf]; exact h0)
  · exact absurd hstart hb
  · exact .inl (by rw [hf]; rfl)
  · exact .inl (by rw [hf]; rfl)
  · exact .inl (by rw [hf]; rfl)
  · exact .inr ⟨h0, by rw [hf]; rfl⟩

/-- Header-free bytes leave the framer Seeking, or have all joined the frame already in flight: once
it has ended no other is begun. -/
theorem feedAll_headerFree (bytes : List Byte) :
    ∀ s : State, (∀ b ∈ bytes, b ≠ s.cfg.header) → (feedAll bytes s).2.seeking ∨
      s.writeIndex ≠ 0 ∧ (feedAll bytes s).2.writeIndex = s.writeIndex + bytes.length := by
  induction bytes with
  | nil => exact fun s _ => (em s.seeking).imp_right fun hopen => ⟨hopen, rfl⟩
  | cons b rest ih =>
    intro s hfree
    have hcfg : (feed b s).2.cfg = s.cfg := (feed_framerEffect b s).cfg
    have hrest : ∀ c ∈ rest, c ≠ (feed b s).2.cfg.header := fun c hc => by
      rw [hcfg]
      exact hfree c (List.mem_cons_of_mem b hc)
    rcases ih (feed b s).2 hrest with hseek | ⟨hopen, hgrown⟩
    · exact .inl hseek
    · rcases feed_headerFree (hfree b List.mem_cons_self) with hended | ⟨h0, hjoined⟩
      · exact absurd hended hopen
      · exact .inr ⟨h0, hgrown.trans (by rw [hjoined, List.length_cons]; omega)⟩

/-- Settles O18: were all the bytes still held (`feedAll_headerFree`), they and the frame they
joined would fill the buffer, which R25 (kept by `feedAll_reassemblyInv`) excludes. -/
theorem headerFreeFlushEndsSeeking : Obligations.HeaderFreeFlushEndsSeeking := by
  intro s bytes legal inv hlength hfree
  rcases feedAll_headerFree bytes s hfree with hseek | ⟨hopen, hheld⟩
  · exact hseek
  · obtain ⟨hinv, hcfg⟩ := feedAll_reassemblyInv bytes inv legal
    have hroom := hinv.below
    rw [hcfg] at hroom
    omega

end Sys2Proof.Machine
end
